-- ==== Sys2Proof/Word.lean ====
section
/-! DEFINITION. The word types of the codec (00_scope.md R11): u8, u16, u18 and u32. Every value is unsigned. -/

namespace Sys2Proof

/-- u8: one byte of a buffer or of the wire. -/
abbrev Byte := BitVec 8

/-- u16: F_TYPE, F_SIZE, F_CSUM, an index of space D. -/
abbrev Half := BitVec 16

/-- u18: W_LEN, an index of space W. -/
abbrev Wide := BitVec 18

/-- u32: a command word (R78) or a response word (R82). -/
abbrev Word := BitVec 32

end Sys2Proof
end

