-- ==== Sys2Proof/Syntax.lean ====
section
/-! DEFINITION. The items of spec/opcode_table.json, one constructor a row: twelve commands, four reserved opcodes, the
eighteen frame-type labels, the three raw wire-byte classes and the escape pair. -/

namespace Sys2Proof

/-- One row of the opcode table, with the operand fields 30_encoding.md R78 and R79 give it. -/
inductive Instr where
  /-- R100: MODE <- m; m = 0 is BootROM, m = 1 is FDL. -/
  | setmode (m : BitVec 1)
  /-- R121: checksum of the frame registers. -/
  | csum
  /-- R163: frame registers to wire buffer. -/
  | encode
  /-- R191: wire buffer to frame registers. -/
  | decode
  /-- R210: F_TYPE <- v. -/
  | wrtype (v : Half)
  /-- R211: F_SIZE <- v. -/
  | wrsize (v : Half)
  /-- R212: F_DATA[i] <- b. -/
  | wrdata (i : Half) (b : Byte)
  /-- R213: W_LEN <- v. -/
  | wrwlen (v : Wide)
  /-- R214: W_BUF[i] <- b. -/
  | wrwbuf (i : Wide) (b : Byte)
  /-- R215: read the register that sel names (R80). -/
  | rdreg (sel : BitVec 4)
  /-- R217: read F_DATA[i]. -/
  | rddata (i : Half)
  /-- R218: read W_BUF[i]. -/
  | rdwbuf (i : Wide)
  /-- R81: reserved opcode 0x0; x is the rest of the word. -/
  | reservedOp0 (x : BitVec 28)
  /-- R81: reserved opcode 0xD. -/
  | reservedOpD (x : BitVec 28)
  /-- R81: reserved opcode 0xE. -/
  | reservedOpE (x : BitVec 28)
  /-- R81: reserved opcode 0xF. -/
  | reservedOpF (x : BitVec 28)
  /-- R74: the type field holds 0x0000. -/
  | typeConnect
  /-- R74: 0x0001. -/
  | typeStartDataTransfer
  /-- R74: 0x0002. -/
  | typeDataTransfer
  /-- R74: 0x0003. -/
  | typeEndDataTransfer
  /-- R74: 0x0004. -/
  | typeExecuteData
  /-- R74: 0x0005. -/
  | typeReset
  /-- R74: 0x0006. -/
  | typeReadFlash
  /-- R74: 0x000A. -/
  | typeEraseFlash
  /-- R74: 0x000C. -/
  | typeReadFlashType
  /-- R74: 0x000D. -/
  | typeReadFlashInfo
  /-- R74: 0x001B. -/
  | typeEnableFlash
  /-- R74: 0x0080. -/
  | typeAcknowledgement
  /-- R74: 0x0081. -/
  | typeBanner
  /-- R74: 0x0089. -/
  | typeDestinationError
  /-- R74: 0x008A. -/
  | typeSizeError
  /-- R74: 0x008B. -/
  | typeVerificationError
  /-- R74: 0x0093. -/
  | typeReadFlashResponse
  /-- R74: 0x00A6. -/
  | typeVerificationFailure
  /-- R76: the raw byte 0x7E at a delimiter position. -/
  | wireDelim
  /-- R76, R143: the raw byte 0x7D, an escape prefix in the field region. -/
  | wireEsc
  /-- R76, R143: any other raw byte, a literal in the field region (0x7E included, R144). -/
  | wireLit (b : Byte)
  /-- R140: the pair 0x7D, b XOR 0x20 that stands for the field byte b = 0x7E or 0x7D. -/
  | encEscape (b : Byte)
  deriving DecidableEq, Repr

/-- R74: the labels of the frame types, as names only. -/
inductive FrameType where
  | connect | startDataTransfer | dataTransfer | endDataTransfer | executeData | reset | readFlash | eraseFlash
  | readFlashType | readFlashInfo | enableFlash | acknowledgement | banner | destinationError | sizeError
  | verificationError | readFlashResponse | verificationFailure
  deriving DecidableEq, Repr

/-- R76: where in a frame a raw byte stands. -/
inductive WirePos where
  /-- Position 0, or the position just after the checksum. -/
  | delimiter
  /-- Between the two delimiters. -/
  | field
  deriving DecidableEq, Repr

/-- The bits of a table row, under the four formats of the table. -/
inductive Code where
  /-- CMD32: a command word, the only thing the host issues (R78). -/
  | command (w : Word)
  /-- FRAME_TYPE16: the value of the frame's type field (R74). -/
  | frameType (v : Half)
  /-- WIRE_BYTE8: a raw byte, with its position, which R76 makes part of its meaning. -/
  | wireByte (p : WirePos) (b : Byte)
  /-- WIRE_PAIR16: two raw bytes, the first in the high half (R140). -/
  | wirePair (v : Half)
  deriving DecidableEq, Repr

end Sys2Proof
end

