-- ==== Sys2Proof/WellFormed.lean ====
section
/-! DEFINITION. Which terms of Instr are spelled by some row of the table. The operand fields have the spec's widths, so
only the two rows whose byte is restricted need a check. -/

namespace Sys2Proof

/-- R76: a literal is any raw byte but the escape prefix 0x7D. R140: only 0x7E and 0x7D are sent as an escape pair. -/
def Instr.wf : Instr → Bool
  | .wireLit b => b != 0x7D#8
  | .encEscape b => b == 0x7E#8 || b == 0x7D#8
  | .setmode _ | .csum | .encode | .decode | .wrtype _ | .wrsize _ | .wrdata _ _ | .wrwlen _ | .wrwbuf _ _
  | .rdreg _ | .rddata _ | .rdwbuf _ | .reservedOp0 _ | .reservedOpD _ | .reservedOpE _ | .reservedOpF _
  | .typeConnect | .typeStartDataTransfer | .typeDataTransfer | .typeEndDataTransfer | .typeExecuteData | .typeReset
  | .typeReadFlash | .typeEraseFlash | .typeReadFlashType | .typeReadFlashInfo | .typeEnableFlash
  | .typeAcknowledgement | .typeBanner | .typeDestinationError | .typeSizeError | .typeVerificationError
  | .typeReadFlashResponse | .typeVerificationFailure | .wireDelim | .wireEsc => true

end Sys2Proof
end

