-- ==== Sys2Proof/Decode.lean ====
section
/-! DEFINITION. Decoding and encoding of every row of the opcode table (30_encoding.md). Part A: command words (R78 to
R81). Part B: frame-type codes (R74), raw wire bytes (R76) and escape pairs (R140). Then the encoder, written from the
same tables, and the two forms the host asks for. -/

namespace Sys2Proof

/-- Why some bits spell no row of the table. -/
inductive Reject where
  /-- R81: a command word with a must-be-zero bit set to 1. -/
  | reservedBit
  /-- R75: a frame type with no label; it is valid on the wire, but it is no row of the table. -/
  | unlabelledType
  /-- R76: a delimiter position holds another byte than 0x7E. -/
  | notDelimiter
  /-- R140: two bytes that ENCODE never writes as an escape pair. -/
  | notEscapePair
  deriving DecidableEq, Repr

/-- R79: the n bits of w from bit lo up, as an unsigned number. -/
def bitsOf (w : Word) (lo n : Nat) : BitVec n := w.extractLsb' lo n

/-- R78: the n bits of w from bit lo up are all zero. -/
def zeroBits (w : Word) (lo n : Nat) : Bool := bitsOf w lo n == 0#n

/-- R81: the command i, if every must-be-zero bit of its word is 0. -/
def unlessReserved (ok : Bool) (i : Instr) : Except Reject Instr :=
  if ok then .ok i else .error .reservedBit

/-- R78, R79, R81: what a command word spells. Bits [31:28] are the opcode; the last arm is opcode 0xF. -/
def decodeCommand (w : Word) : Except Reject Instr :=
  match bitsOf w 28 4 with
  | 0x0#4 => .ok (.reservedOp0 (bitsOf w 0 28))
  | 0x1#4 => unlessReserved (zeroBits w 1 27) (.setmode (bitsOf w 0 1))
  | 0x2#4 => unlessReserved (zeroBits w 0 28) .csum
  | 0x3#4 => unlessReserved (zeroBits w 0 28) .encode
  | 0x4#4 => unlessReserved (zeroBits w 0 28) .decode
  | 0x5#4 => unlessReserved (zeroBits w 16 12) (.wrtype (bitsOf w 0 16))
  | 0x6#4 => unlessReserved (zeroBits w 16 12) (.wrsize (bitsOf w 0 16))
  | 0x7#4 => unlessReserved (zeroBits w 24 4) (.wrdata (bitsOf w 8 16) (bitsOf w 0 8))
  | 0x8#4 => unlessReserved (zeroBits w 18 10) (.wrwlen (bitsOf w 0 18))
  | 0x9#4 => unlessReserved (zeroBits w 26 2) (.wrwbuf (bitsOf w 8 18) (bitsOf w 0 8))
  | 0xA#4 => unlessReserved (zeroBits w 4 24) (.rdreg (bitsOf w 0 4))
  | 0xB#4 => unlessReserved (zeroBits w 24 4 && zeroBits w 0 8) (.rddata (bitsOf w 8 16))
  | 0xC#4 => unlessReserved (zeroBits w 26 2 && zeroBits w 0 8) (.rdwbuf (bitsOf w 8 18))
  | 0xD#4 => .ok (.reservedOpD (bitsOf w 0 28))
  | 0xE#4 => .ok (.reservedOpE (bitsOf w 0 28))
  | _ => .ok (.reservedOpF (bitsOf w 0 28))

/-- R74: the 16-bit code of a label. -/
def FrameType.code : FrameType → Half
  | .connect => 0x0000#16
  | .startDataTransfer => 0x0001#16
  | .dataTransfer => 0x0002#16
  | .endDataTransfer => 0x0003#16
  | .executeData => 0x0004#16
  | .reset => 0x0005#16
  | .readFlash => 0x0006#16
  | .eraseFlash => 0x000A#16
  | .readFlashType => 0x000C#16
  | .readFlashInfo => 0x000D#16
  | .enableFlash => 0x001B#16
  | .acknowledgement => 0x0080#16
  | .banner => 0x0081#16
  | .destinationError => 0x0089#16
  | .sizeError => 0x008A#16
  | .verificationError => 0x008B#16
  | .readFlashResponse => 0x0093#16
  | .verificationFailure => 0x00A6#16

/-- R74: all the labels, in the table's order. -/
def FrameType.all : List FrameType :=
  [.connect, .startDataTransfer, .dataTransfer, .endDataTransfer, .executeData, .reset, .readFlash, .eraseFlash,
    .readFlashType, .readFlashInfo, .enableFlash, .acknowledgement, .banner, .destinationError, .sizeError,
    .verificationError, .readFlashResponse, .verificationFailure]

/-- R74, R75: the label of a type value, where it has one. -/
def FrameType.ofCode (v : Half) : Option FrameType := FrameType.all.find? (fun t => t.code == v)

/-- The table's row of a label. -/
def FrameType.instr : FrameType → Instr
  | .connect => .typeConnect
  | .startDataTransfer => .typeStartDataTransfer
  | .dataTransfer => .typeDataTransfer
  | .endDataTransfer => .typeEndDataTransfer
  | .executeData => .typeExecuteData
  | .reset => .typeReset
  | .readFlash => .typeReadFlash
  | .eraseFlash => .typeEraseFlash
  | .readFlashType => .typeReadFlashType
  | .readFlashInfo => .typeReadFlashInfo
  | .enableFlash => .typeEnableFlash
  | .acknowledgement => .typeAcknowledgement
  | .banner => .typeBanner
  | .destinationError => .typeDestinationError
  | .sizeError => .typeSizeError
  | .verificationError => .typeVerificationError
  | .readFlashResponse => .typeReadFlashResponse
  | .verificationFailure => .typeVerificationFailure

/-- R74: what a value of the type field spells. -/
def decodeFrameType (v : Half) : Except Reject Instr :=
  match FrameType.ofCode v with
  | some t => .ok t.instr
  | none => .error .unlabelledType

/-- R76: the class of a raw byte at its position. -/
def decodeWireByte (p : WirePos) (b : Byte) : Except Reject Instr :=
  match p with
  | .delimiter => if b = 0x7E#8 then .ok .wireDelim else .error .notDelimiter
  | .field => if b = 0x7D#8 then .ok .wireEsc else .ok (.wireLit b)

/-- R140: the escape pair 0x7D, b XOR 0x20 with b = 0x7E or 0x7D. -/
def decodeWirePair (v : Half) : Except Reject Instr :=
  if v = 0x7D5E#16 then .ok (.encEscape 0x7E#8)
  else if v = 0x7D5D#16 then .ok (.encEscape 0x7D#8)
  else .error .notEscapePair

/-- What the bits of a row spell; total, and every rejection has a name. -/
def decode : Code → Except Reject Instr
  | .command w => decodeCommand w
  | .frameType v => decodeFrameType v
  | .wireByte p b => decodeWireByte p b
  | .wirePair v => decodeWirePair v

/-- The bits of an instruction, from the same tables: R78 for the commands (an operand field is zero-extended and shifted
to its place), R74 for the labels, R76 and R140 for the wire. -/
def encode : Instr → Code
  | .setmode m => .command (0x10000000#32 ||| m.setWidth 32)
  | .csum => .command 0x20000000#32
  | .encode => .command 0x30000000#32
  | .decode => .command 0x40000000#32
  | .wrtype v => .command (0x50000000#32 ||| v.setWidth 32)
  | .wrsize v => .command (0x60000000#32 ||| v.setWidth 32)
  | .wrdata i b => .command (0x70000000#32 ||| (i.setWidth 32 <<< 8) ||| b.setWidth 32)
  | .wrwlen v => .command (0x80000000#32 ||| v.setWidth 32)
  | .wrwbuf i b => .command (0x90000000#32 ||| (i.setWidth 32 <<< 8) ||| b.setWidth 32)
  | .rdreg sel => .command (0xA0000000#32 ||| sel.setWidth 32)
  | .rddata i => .command (0xB0000000#32 ||| (i.setWidth 32 <<< 8))
  | .rdwbuf i => .command (0xC0000000#32 ||| (i.setWidth 32 <<< 8))
  | .reservedOp0 x => .command (x.setWidth 32)
  | .reservedOpD x => .command (0xD0000000#32 ||| x.setWidth 32)
  | .reservedOpE x => .command (0xE0000000#32 ||| x.setWidth 32)
  | .reservedOpF x => .command (0xF0000000#32 ||| x.setWidth 32)
  | .typeConnect => .frameType FrameType.connect.code
  | .typeStartDataTransfer => .frameType FrameType.startDataTransfer.code
  | .typeDataTransfer => .frameType FrameType.dataTransfer.code
  | .typeEndDataTransfer => .frameType FrameType.endDataTransfer.code
  | .typeExecuteData => .frameType FrameType.executeData.code
  | .typeReset => .frameType FrameType.reset.code
  | .typeReadFlash => .frameType FrameType.readFlash.code
  | .typeEraseFlash => .frameType FrameType.eraseFlash.code
  | .typeReadFlashType => .frameType FrameType.readFlashType.code
  | .typeReadFlashInfo => .frameType FrameType.readFlashInfo.code
  | .typeEnableFlash => .frameType FrameType.enableFlash.code
  | .typeAcknowledgement => .frameType FrameType.acknowledgement.code
  | .typeBanner => .frameType FrameType.banner.code
  | .typeDestinationError => .frameType FrameType.destinationError.code
  | .typeSizeError => .frameType FrameType.sizeError.code
  | .typeVerificationError => .frameType FrameType.verificationError.code
  | .typeReadFlashResponse => .frameType FrameType.readFlashResponse.code
  | .typeVerificationFailure => .frameType FrameType.verificationFailure.code
  | .wireDelim => .wireByte .delimiter 0x7E#8
  | .wireEsc => .wireByte .field 0x7D#8
  | .wireLit b => .wireByte .field b
  | .encEscape b => .wirePair (0x7D00#16 ||| (b ^^^ 0x20#8).setWidth 16)

/-- A 16-bit row: an escape pair where it is one (0x7D5E and 0x7D5D are no labelled frame type), else a frame type. -/
def rowCode16 (v : Half) : Code := if v = 0x7D5E#16 ∨ v = 0x7D5D#16 then .wirePair v else .frameType v

/-- An 8-bit row: 0x7E stands at a delimiter position, every other byte in the field region (log 10). -/
def rowCode8 (b : Byte) : Code := .wireByte (if b = 0x7E#8 then .delimiter else .field) b

/-- The row whose nbits bits are w: a command word has 32 bits, the other rows 16 or 8; no row has another width. -/
def tableCode (nbits w : Nat) : Option Code :=
  match nbits with
  | 32 => some (.command (BitVec.ofNat 32 w))
  | 16 => some (rowCode16 (BitVec.ofNat 16 w))
  | 8 => some (rowCode8 (BitVec.ofNat 8 w))
  | _ => none

/-- The instruction the decoder reads from the nbits bits w of a table row. -/
def decodeTableWord (nbits w : Nat) : Option Instr :=
  match tableCode nbits w with
  | some c => (decode c).toOption
  | none => none

end Sys2Proof
end

