-- ==== Sys2Proof/Machine/Constants.lean ====
section
/-! DEFINITION. The fixed constants of the codec (00_scope.md R8), each in one place. -/

namespace Sys2Proof.Machine

/-- DELIM, the frame delimiter. -/
def delim : Byte := 0x7E#8

/-- ESC, the escape byte. -/
def esc : Byte := 0x7D#8

/-- ESC_XOR, the value XORed into an escaped byte. -/
def escXor : Byte := 0x20#8

/-- POLY, the BootROM CRC polynomial. -/
def poly : Half := 0x1021#16

/-- MIN_FRAME, the minimum frame length in bytes (R73). -/
def minFrame : Nat := 8

end Sys2Proof.Machine
end

