-- ==== Sys2Proof/Machine/Bytes.lean ====
section
/-! DEFINITION. Big-endian byte order (20_memory.md R52): how a 16-bit field becomes two bytes, and back. -/

namespace Sys2Proof.Machine

/-- v[15:8]. -/
def hiByte (v : Half) : Byte := v.extractLsb' 8 8

/-- v[7:0]. -/
def loByte (v : Half) : Byte := v.extractLsb' 0 8

/-- R52: the two bytes of a field, high byte first. -/
def bytesOf (v : Half) : List Byte := [hiByte v, loByte v]

/-- R11: be16(hi, lo) = (hi << 8) | lo. -/
def be16 (hi lo : Byte) : Half := hi ++ lo

end Sys2Proof.Machine
end

