-- ==== Sys2Proof/Config.lean ====
section
/-! DEFINITION. What one implementation fixes: WIRE_CAP (00_scope.md R6, decision D7), and DATA_CAP, which the codec
itself fixes (R7). HOST_MAP (20_memory.md R57) enters no rule and has no field (log 21). -/

namespace Sys2Proof

/-- The named parameter of the block. It is held in State as plain data, so that one model serves every capacity (log 1). -/
structure Config where
  /-- WIRE_CAP, the capacity of W_BUF in bytes (R6). -/
  wireCap : Nat
  deriving DecidableEq, Repr

/-- R6: 16 <= WIRE_CAP <= 262143. -/
abbrev Config.Ok (c : Config) : Prop := 16 ≤ c.wireCap ∧ c.wireCap ≤ 262143

/-- The value R6 recommends, 2*(8+65535). DESIGN CHOICE (log 1): State.reset uses it. -/
def Config.recommended : Config := ⟨131086⟩

/-- R7: DATA_CAP, the capacity of F_DATA in bytes. -/
def dataCap : Nat := 65535

end Sys2Proof
end

