-- ==== Sys2Proof/Machine/State.lean ====
section
/-! DEFINITION. Everything the spec gives the block, as plain data: the eight items and two marks of 10_state.md R20, the
working state of R30, the parameter of R6, and the two ends of the host interface. Then the reset state (R270). -/

namespace Sys2Proof.Machine

/-- A register that may hold no value. "Unwritten" is the spec's own state of a cell (R31), in which a read faults (R216).
No register is in it at State.reset (log 2). -/
inductive Reg (n : Nat) where
  /-- R31: the cell holds no value; a command that reads it faults. -/
  | unwritten
  /-- The cell holds v. -/
  | written (v : BitVec n)
  deriving DecidableEq, Repr

/-- R22: the checksum selector, 1 bit. -/
inductive Mode where
  /-- MODE = 0. -/
  | bootRom
  /-- MODE = 1. -/
  | fdl
  deriving DecidableEq, Repr

/-- The bytes of one address space (R50), as (address, byte) pairs; an address with no pair is an unwritten byte (R31). -/
abbrev Memory := List Host.Cell

/-- The canonical form: addresses strictly rising. An unlisted address reads as no value, so no listed pair equals it. -/
abbrev Memory.wf (m : Memory) : Prop := m.Pairwise (fun x y => x.1 < y.1)

/-- Every listed byte lies in a space of n bytes (R51). -/
abbrev Memory.Below (n : Nat) (m : Memory) : Prop := ∀ c ∈ m, c.1 < n

/-- R28: what identifies a frame. -/
structure Frame where
  type : Half
  size : Half
  data : List Byte
  deriving DecidableEq, Repr

/-- R30, R180: the working state of a DECODE that has read some bytes of W_BUF. -/
structure Decoder where
  /-- MODE as read at the start (R101). -/
  mode : Mode
  /-- L, W_LEN as read at the start. -/
  len : Nat
  /-- The read cursor. -/
  pos : Nat
  /-- The last raw byte was an escape prefix (R143). -/
  escaped : Bool
  /-- The field bytes assembled so far, in order. -/
  bytes : List Byte
  deriving DecidableEq, Repr

/-- R30, R160: the working state of an ENCODE that has produced some wire bytes. -/
structure Encoder where
  /-- The checksum computed over the frame. -/
  csum : Half
  /-- The field bytes still to be sent, in order. -/
  todo : List Byte
  /-- The wire bytes produced so far; the output cursor is its length. -/
  out : List Byte
  deriving DecidableEq, Repr

/-- R30: working state. It exists only inside one codec command, so between commands it is idle (log 6). -/
inductive Work where
  | idle
  | encoding (e : Encoder)
  | decoding (d : Decoder)
  deriving DecidableEq, Repr

/-- R10: why the block stops with a fault. -/
inductive Fault where
  /-- R31, R246, the spec's fault(UnwrittenRead): raised by CSUM (R121), ENCODE (R163), DECODE (R191), RDREG (R216),
  RDDATA (R217), RDWBUF (R218), and by a DECODE in progress (R180), when they read an unwritten cell. Safe. -/
  | unwrittenRead
  /-- R246: raised by step when the fault mark is set; the block has no further step (log 5). Safe. -/
  | faultMarkSet
  deriving DecidableEq, Repr

/-- R10: why the block refuses. -/
inductive Refusal where
  /-- Raised by exec for an instruction without a meaning; no arm of exec uses it. Safe. -/
  | notModelled (mnemonic : String)
  /-- R247: raised by step for a command word with a must-be-zero bit set, by the reserved opcodes, and by RDREG with a
  reserved selector. Safe. -/
  | reservedEncoding
  /-- R247: raised by WRDATA, WRWLEN, WRWBUF, RDDATA and RDWBUF. Safe. -/
  | addressOutOfRange
  /-- R247: raised by step when the refusal mark is set; the block has no further step (log 5). Safe. -/
  | refusalMarkSet
  /-- Raised by a frame-type label or a wire item while no codec command is in progress (log 7). Safe. -/
  | noCommandInProgress
  /-- Raised by a frame-type label or a wire item that the command in progress does not come to here (log 7). Safe. -/
  | itemOutOfPlace
  deriving DecidableEq, Repr

/-- The block (R20, R30), its parameter (R6) and its host interface (R9, R82). -/
structure State where
  /-- WIRE_CAP (R6); no step changes it. -/
  config : Config
  /-- MODE (R22). -/
  mode : Mode
  /-- STATUS (R23). -/
  status : BitVec 4
  /-- F_TYPE (R24). -/
  fType : Reg 16
  /-- F_SIZE (R25). -/
  fSize : Reg 16
  /-- F_CSUM (R27). -/
  fCsum : Reg 16
  /-- W_LEN (R29). -/
  wLen : Reg 18
  /-- F_DATA, space D (R26, R50). -/
  fData : Memory
  /-- W_BUF, space W (R29, R50). -/
  wBuf : Memory
  /-- The sticky fault mark (R246). -/
  faultMark : Bool
  /-- The sticky refusal mark (R247). -/
  refusalMark : Bool
  /-- Working state (R30), idle between commands. -/
  work : Work
  /-- The host's command words the block has not run yet, oldest first (R9; the model's own field, log 3). -/
  pending : List Word
  /-- The response words the host has received, oldest first (R82; the model's own field, log 4). -/
  responses : List Word
  deriving DecidableEq, Repr

/-- The table of R270 to the letter, for any capacity: the four registers and every buffer byte are unwritten. -/
def State.resetUnwritten (c : Config) : State where
  config := c
  mode := .bootRom
  status := 0#4
  fType := .unwritten
  fSize := .unwritten
  fCsum := .unwritten
  wLen := .unwritten
  fData := []
  wBuf := []
  faultMark := false
  refusalMark := false
  work := .idle
  pending := []
  responses := []

/-- The block after reset, for any capacity: R270's table, but that the four registers for which it gives no value hold 0.
DESIGN CHOICE (log 2), unsafe: every register holds a value at reset, where R216 has a read of one of them fault. -/
def State.resetWith (c : Config) : State :=
  { State.resetUnwritten c with
    fType := .written 0#16
    fSize := .written 0#16
    fCsum := .written 0#16
    wLen := .written 0#18 }

/-- Reset at the recommended WIRE_CAP (log 1). -/
def State.reset : State := State.resetWith Config.recommended

end Sys2Proof.Machine
end

