-- ==== Sys2Proof/Machine/Flags.lean ====
section
/-! DEFINITION. The block has no condition flags (10_state.md R21); STATUS takes their place (R23). Its codes are those of
60_exceptions.md R241. -/

namespace Sys2Proof.Machine

/-- R241: the codec errors. -/
inductive CodecError where
  /-- R181: W_LEN < 8. -/
  | tooShort
  /-- R182, R189, R146: missing or misplaced delimiter. -/
  | framingError
  /-- R184, R146: the declared dataSize exceeds the bytes there are. -/
  | dataUnderflow
  /-- R188: the checksums differ. -/
  | checksumMismatch
  /-- R161: the doubled frame bound exceeds WIRE_CAP. -/
  | allocationFailure
  deriving DecidableEq, Repr

/-- R241: the STATUS code of an error. Codes 6 to 15 are never written. -/
def CodecError.code : CodecError → BitVec 4
  | .tooShort => 1#4
  | .framingError => 2#4
  | .dataUnderflow => 3#4
  | .checksumMismatch => 4#4
  | .allocationFailure => 5#4

/-- R241: the STATUS code of success. -/
def okCode : BitVec 4 := 0#4

/-- R22: the MODE bit of a mode. -/
def Mode.bit : Mode → BitVec 1
  | .bootRom => 0#1
  | .fdl => 1#1

/-- R22, R100: the mode a MODE bit selects. -/
def Mode.ofBit (m : BitVec 1) : Mode := if m = 1#1 then .fdl else .bootRom

end Sys2Proof.Machine
end

