-- ==== Sys2Proof/Machine/Ops.lean ====
section
/-! DEFINITION. The named operations over the two byte spaces and the registers, and the ways a command ends
(00_scope.md R12): complete, fault and refuse. The block takes no exception (60_exceptions.md R248), so what other
machines do on exception entry is here the setting of a mark (R246, R247). -/

namespace Sys2Proof.Machine

/-! ### The byte spaces -/

/-- R12: MemRead of one byte; none is an unwritten byte. -/
def Memory.read : Memory → Nat → Option Byte
  | [], _ => none
  | (a, b) :: rest, k => if k = a then some b else Memory.read rest k

/-- R12: MemWrite of one byte. -/
def Memory.write : Memory → Nat → Byte → Memory
  | [], k, v => [(k, v)]
  | (a, b) :: rest, k, v =>
    if k < a then (k, v) :: (a, b) :: rest
    else if k = a then (k, v) :: rest
    else (a, b) :: Memory.write rest k v

/-- MemWrite of bs at k, k+1, ... -/
def Memory.writeFrom (m : Memory) (k : Nat) : List Byte → Memory
  | [] => m
  | b :: bs => Memory.writeFrom (Memory.write m k b) (k + 1) bs

/-- [MemRead(k), ..., MemRead(k+n-1)]; none if one of them is unwritten. -/
def Memory.readFrom (m : Memory) (k : Nat) : Nat → Option (List Byte)
  | 0 => some []
  | n + 1 =>
    match Memory.read m k, Memory.readFrom m (k + 1) n with
    | some b, some bs => some (b :: bs)
    | _, _ => none

/-! ### Register writes, one operation a register -/

/-- MODE <- m. -/
def State.setMode (s : State) (m : Mode) : State := { s with mode := m }
/-- R12: complete(code), STATUS <- code. -/
def State.complete (s : State) (code : BitVec 4) : State := { s with status := code }
/-- F_TYPE <- v. -/
def State.setType (s : State) (v : Half) : State := { s with fType := .written v }
/-- F_SIZE <- v. -/
def State.setSize (s : State) (v : Half) : State := { s with fSize := .written v }
/-- F_CSUM <- v. -/
def State.setCsum (s : State) (v : Half) : State := { s with fCsum := .written v }
/-- W_LEN <- v. -/
def State.setWireLen (s : State) (v : Wide) : State := { s with wLen := .written v }
/-- F_DATA[k], F_DATA[k+1], ... <- bs. -/
def State.setData (s : State) (k : Nat) (bs : List Byte) : State := { s with fData := s.fData.writeFrom k bs }
/-- W_BUF[k], W_BUF[k+1], ... <- bs. -/
def State.setWire (s : State) (k : Nat) (bs : List Byte) : State := { s with wBuf := s.wBuf.writeFrom k bs }
/-- The working state of the command in progress (R30). -/
def State.setWork (s : State) (w : Work) : State := { s with work := w }
/-- R82: one response word goes to the host. -/
def State.respond (s : State) (w : Word) : State := { s with responses := s.responses ++ [w] }
/-- The host's command words still to be run. -/
def State.setPending (s : State) (ws : List Word) : State := { s with pending := ws }
/-- R246: the sticky fault mark. -/
def State.setFaultMark (s : State) (b : Bool) : State := { s with faultMark := b }
/-- R247: the sticky refusal mark. -/
def State.setRefusalMark (s : State) (b : Bool) : State := { s with refusalMark := b }

/-! ### Reads that may fault, and the ends of a step -/

/-- The outcome of one step of the block (R10). -/
abbrev Outcome := Host.Outcome State Fault Refusal

/-- Go on with a value that was read, or fault (R31, R246). -/
def orFault {α : Type} (v : Option α) (k : α → Outcome) : Outcome :=
  match v with
  | some a => k a
  | none => .fault .unwrittenRead

/-- The value of a register, none if it is unwritten (R31). -/
def Reg.value? {n : Nat} : Reg n → Option (BitVec n)
  | .unwritten => none
  | .written v => some v

/-- R28: the frame the frame registers hold; none if F_TYPE, F_SIZE or a byte of F_DATA[0..F_SIZE) is unwritten. -/
def State.frame? (s : State) : Option Frame :=
  match s.fType, s.fSize with
  | .written t, .written z => (s.fData.readFrom 0 z.toNat).map (fun d => ⟨t, z, d⟩)
  | _, _ => none

/-- R246, R247: the block after an outcome: a stop writes nothing but its sticky mark. -/
def State.afterOutcome (s : State) : Outcome → State
  | .next t => t
  | .fault _ => s.setFaultMark true
  | .refused _ => s.setRefusalMark true

/-- R270: the reset event: the block's state is that after reset, whatever it was; WIRE_CAP is the implementation's. -/
def State.resetNow (s : State) : State := State.resetWith s.config

end Sys2Proof.Machine
end

