-- ==== Sys2Proof/Machine/Checksum.lean ====
section
/-! DEFINITION. The checksum engine (41_checksum.md): BootROM (R111 to R114), FDL (R115 to R119), the selector (R120) and
the command CSUM (R121). -/

namespace Sys2Proof.Machine

/-- R110: the input sequence: big-endian type, big-endian dataSize, then the data. -/
def cin (t s : Half) (d : List Byte) : List Byte := bytesOf t ++ bytesOf s ++ d

/-! ### BootROM -/

/-- R111: one of the eight shifts of crc_step. -/
def crcShift (c : Half) : Half := if c.getLsbD 15 then (c <<< 1) ^^^ poly else c <<< 1

/-- R111: crc_step, eight shifts. -/
def crcStep (c : Half) : Half := crcShift^[8] c

/-- R111: the table entry T[i] = crc_step(i << 8). The printed table is Machine/CrcTable.lean (log 16). -/
def crcTable (i : Byte) : Half := crcStep (i ++ 0#8)

/-- R113: r <- ((r << 8) & 0xFFFF) ^ T[(r >> 8) ^ b]. -/
def crcUpdate (r : Half) (b : Byte) : Half := (r <<< 8) ^^^ crcTable (hiByte r ^^^ b)

/-- R112, R113: the register after the bytes q, started at 0. -/
def crc (q : List Byte) : Half := q.foldl crcUpdate 0#16

/-- R114: BootROM(t, s, d); no finalization step. -/
def bootRom (t s : Half) (d : List Byte) : Half := crc (cin t s d)

/-! ### FDL -/

/-- R116: FdlAdd: big-endian words, and an odd last byte alone, not shifted. -/
def fdlAdd (acc : BitVec 32) : List Byte → BitVec 32
  | [] => acc
  | [b] => acc + b.setWidth 32
  | hi :: lo :: q => fdlAdd (acc + (be16 hi lo).setWidth 32) q

/-- R118: one fold of the carries. -/
def fdlFold (acc : BitVec 32) : BitVec 32 := (acc >>> 16) + (acc &&& 0xFFFF#32)

/-- R118: fold, fold, complement, cut to 16 bits. -/
def fdlFinish (acc : BitVec 32) : Half := (~~~(fdlFold (fdlFold acc))).setWidth 16

/-- R117: the accumulator after the three calls, started at 0 (R115). -/
def fdlSum (t s : Half) (d : List Byte) : BitVec 32 :=
  fdlAdd (fdlAdd (fdlAdd 0#32 (bytesOf t)) (bytesOf s)) d

/-- R119: FDL(t, s, d). -/
def fdl (t s : Half) (d : List Byte) : Half := fdlFinish (fdlSum t s d)

/-! ### The selector and CSUM -/

/-- R120: Checksum(mode, t, s, d). -/
def checksum (mode : Mode) (t s : Half) (d : List Byte) : Half :=
  match mode with
  | .bootRom => bootRom t s d
  | .fdl => fdl t s d

/-- The checksum of a frame. -/
def Frame.checksum (f : Frame) (mode : Mode) : Half := Machine.checksum mode f.type f.size f.data

/-- R121: CSUM. -/
def execCsum (s : State) : Outcome :=
  orFault s.frame? fun f => .next ((s.setCsum (f.checksum s.mode)).complete okCode)

end Sys2Proof.Machine
end

