-- ==== Sys2Proof/Machine/Stuffing.lean ====
section
/-! DEFINITION. The byte-stuffer (42_stuffing.md): Escape and EscapeSeq, which the encoder uses, and ReadField, which the
decoder uses. -/

namespace Sys2Proof.Machine

/-- R140: the bytes that are escaped. -/
def special (b : Byte) : Bool := b == esc || b == delim

/-- R140: Escape(b). -/
def escape (b : Byte) : List Byte := if special b then [esc, b ^^^ escXor] else [b]

/-- R141: EscapeSeq(q). -/
def escapeSeq (q : List Byte) : List Byte := q.flatMap escape

/-- R143: the phase of the read cursor. -/
inductive Phase where
  /-- type and dataSize -/
  | hdr
  | data
  | csum
  deriving DecidableEq, Repr

/-- R146: the error that running out of data reports, by phase. -/
def outOfData : Phase → CodecError
  | .hdr => .framingError
  | .data => .dataUnderflow
  | .csum => .framingError

/-- Why DecodeFrame stops early: an error it raises, or an unwritten byte (R31). -/
inductive DecodeStop where
  | error (e : CodecError)
  | unwritten
  deriving DecidableEq, Repr

/-- A part of DecodeFrame (R180). -/
abbrev Dec := Except DecodeStop

/-- Raise e unless ok holds. -/
def require (ok : Bool) (e : CodecError) : Dec Unit := if ok then .ok () else .error (.error e)

/-- MemRead(W:pos, 1). -/
def rawByte (w : Memory) (pos : Nat) : Dec Byte :=
  match w.read pos with
  | some b => .ok b
  | none => .error .unwritten

/-- R143: ReadField(ph) at cursor pos, in a wire buffer of length len: the field byte and the new cursor. -/
def readField (ph : Phase) (w : Memory) (len pos : Nat) : Dec (Byte × Nat) := do
  require (pos < len) (outOfData ph)
  let x ← rawByte w pos
  if x = esc then
    require (pos + 1 < len) (outOfData ph)
    let y ← rawByte w (pos + 1)
    .ok (y ^^^ escXor, pos + 2)
  else
    .ok (x, pos + 1)

/-- n field bytes in a row. -/
def readFields (ph : Phase) (w : Memory) (len : Nat) : Nat → Nat → Dec (List Byte × Nat)
  | 0, pos => .ok ([], pos)
  | n + 1, pos => do
    let (b, pos) ← readField ph w len pos
    let (bs, pos) ← readFields ph w len n pos
    .ok (b :: bs, pos)

/-- R53: a big-endian field of two unescaped bytes. -/
def readHalf (ph : Phase) (w : Memory) (len pos : Nat) : Dec (Half × Nat) := do
  let (hi, pos) ← readField ph w len pos
  let (lo, pos) ← readField ph w len pos
  .ok (be16 hi lo, pos)

end Sys2Proof.Machine
end

