-- ==== Sys2Proof/Machine/FrameDecoder.lean ====
section
/-! DEFINITION. The frame decoder (44_decode.md): DecodeFrame (R180 to R190) and the command DECODE (R191, R192). -/

namespace Sys2Proof.Machine

/-- R190: what DecodeFrame returns: (t, s, d, c, used). -/
structure Decoded where
  frame : Frame
  csum : Half
  /-- Raw bytes consumed, both delimiters included. -/
  used : Nat
  deriving DecidableEq, Repr

/-- R180: DecodeFrame(mode, W, L). -/
def decodeFrame (mode : Mode) (w : Memory) (len : Nat) : Dec Decoded := do
  require (minFrame ≤ len) .tooShort                                     -- R181
  let first ← rawByte w 0
  require (first = delim) .framingError                                  -- R182
  let (t, pos) ← readHalf .hdr w len 1                                   -- R183
  let (s, pos) ← readHalf .hdr w len pos
  require (s.toNat ≤ len - 8) .dataUnderflow                             -- R184
  let (d, pos) ← readFields .data w len s.toNat pos                      -- R185
  let (wire, pos) ← readHalf .csum w len pos                             -- R187
  require (wire = checksum mode t s d) .checksumMismatch                 -- R186, R188
  require (pos < len) .framingError                                      -- R189
  let last ← rawByte w pos
  require (last = delim) .framingError                                   -- R189
  .ok ⟨⟨t, s, d⟩, wire, pos + 1⟩                                         -- R190

/-- R191: the writes of a successful DECODE. -/
def State.commitDecoded (s : State) (r : Decoded) : State :=
  ((((s.setType r.frame.type).setSize r.frame.size).setData 0 r.frame.data).setCsum r.csum).complete okCode

/-- R191: DECODE. -/
def execDecode (s : State) : Outcome :=
  orFault s.wLen.value? fun len =>
    match decodeFrame s.mode s.wBuf len.toNat with
    | .ok r => .next (s.commitDecoded r)
    | .error (.error e) => .next (s.complete e.code)
    | .error .unwritten => .fault .unwrittenRead                           -- R31, R191

end Sys2Proof.Machine
end

