-- ==== Sys2Proof/Machine/FrameEncoder.lean ====
section
/-! DEFINITION. The frame encoder (43_encode.md): EncodeFrame (R160, R161) and the command ENCODE (R163, R164). -/

namespace Sys2Proof.Machine

/-- R161: the buffer the source asks for fits in W_BUF. -/
def fits (c : Config) (size : Half) : Bool := 2 * (minFrame + size.toNat) ≤ c.wireCap

/-- R70, R160: the wire bytes of a frame with checksum c. -/
def wireBytes (f : Frame) (c : Half) : List Byte :=
  [delim] ++ escapeSeq (bytesOf f.type) ++ escapeSeq (bytesOf f.size) ++ escapeSeq f.data ++ escapeSeq (bytesOf c)
    ++ [delim]

/-- R160: EncodeFrame(mode, t, s, d): the wire bytes and the checksum, or AllocationFailure. -/
def encodeFrame (c : Config) (mode : Mode) (f : Frame) : Except CodecError (List Byte × Half) :=
  if fits c f.size then .ok (wireBytes f (f.checksum mode), f.checksum mode) else .error .allocationFailure

/-- R163: the writes of a successful ENCODE. -/
def State.commitEncoded (s : State) (out : List Byte) (c : Half) : State :=
  (((s.setWire 0 out).setWireLen (BitVec.ofNat 18 out.length)).setCsum c).complete okCode

/-- R163: ENCODE. -/
def execEncode (s : State) : Outcome :=
  orFault s.frame? fun f =>
    match encodeFrame s.config s.mode f with
    | .error e => .next (s.complete e.code)
    | .ok (out, c) => .next (s.commitEncoded out c)

end Sys2Proof.Machine
end

