-- ==== Sys2Proof/Machine/WireItems.lean ====
section
/-! DEFINITION. The raw wire bytes and the escape pair as sub-steps of a codec command in progress (log 6). A DECODE in
progress takes raw bytes one by one (30_encoding.md R76, R143); an ENCODE in progress sends field bytes one by one
(R140, R142, R160). Until the command completes only its working state changes (R30, R56); its last item makes the writes
of R163, R191 or R192, all at once. -/

namespace Sys2Proof.Machine

/-! ### A DECODE in progress -/

/-- The type field assembled so far. -/
def Decoder.type (d : Decoder) : Half := be16 (d.bytes.getD 0 0#8) (d.bytes.getD 1 0#8)
/-- The dataSize field. -/
def Decoder.size (d : Decoder) : Half := be16 (d.bytes.getD 2 0#8) (d.bytes.getD 3 0#8)
/-- The data bytes. -/
def Decoder.data (d : Decoder) : List Byte := (d.bytes.drop 4).take d.size.toNat
/-- The wire checksum. -/
def Decoder.csum (d : Decoder) : Half :=
  be16 (d.bytes.getD (4 + d.size.toNat) 0#8) (d.bytes.getD (5 + d.size.toNat) 0#8)
/-- R186: the expected checksum. -/
def Decoder.expected (d : Decoder) : Half := checksum d.mode d.type d.size d.data

/-- R76: where the cursor stands: at a delimiter position, or in a phase of the field region (R143). -/
inductive Place where
  | leading
  | inField (ph : Phase)
  | trailing
  deriving DecidableEq, Repr

/-- R76: the frame's end is found by counting field bytes. -/
def Decoder.place (d : Decoder) : Place :=
  if d.pos = 0 then .leading
  else if d.bytes.length < 4 then .inField .hdr
  else if d.bytes.length < 4 + d.size.toNat then .inField .data
  else if d.bytes.length < 6 + d.size.toNat then .inField .csum
  else .trailing

/-- What taking a raw byte leads to. -/
inductive Taken where
  | more (d : Decoder)
  | done (r : Decoded)
  | failed (e : CodecError)
  deriving DecidableEq, Repr

/-- R146, R189: the error for a frame that goes on past W_LEN. -/
def Decoder.outOfData (d : Decoder) : CodecError :=
  match d.place with
  | .inField ph => Machine.outOfData ph
  | .leading | .trailing => .framingError

/-- R143, R189: the bounds check of the next raw read (log 9). -/
def Decoder.proceed (d : Decoder) : Taken := if d.pos < d.len then .more d else .failed d.outOfData

/-- A field byte is complete: R184 after the fourth, R188 after the last of the checksum, then the next raw read. -/
def Decoder.push (d : Decoder) (y : Byte) : Taken :=
  let d := { d with pos := d.pos + 1, escaped := false, bytes := d.bytes ++ [y] }
  if d.bytes.length = 4 ∧ d.len - 8 < d.size.toNat then .failed .dataUnderflow
  else if d.bytes.length = 6 + d.size.toNat ∧ d.csum ≠ d.expected then .failed .checksumMismatch
  else d.proceed

/-- R76, R143: take the raw byte x at the cursor. -/
def Decoder.takeRaw (d : Decoder) (x : Byte) : Taken :=
  match d.place with
  | .leading => if x = delim then { d with pos := 1 }.proceed else .failed .framingError
  | .trailing => if x = delim then .done ⟨⟨d.type, d.size, d.data⟩, d.csum, d.pos + 1⟩ else .failed .framingError
  | .inField _ =>
    if d.escaped then d.push (x ^^^ escXor)
    else if x = esc then { d with pos := d.pos + 1, escaped := true }.proceed
    else d.push x

/-- The DECODE in progress takes the raw bytes in turn, and completes when they end it (R191, R192). -/
def State.feed (s : State) (d : Decoder) : List Byte → Outcome
  | [] => .next (s.setWork (.decoding d))
  | x :: xs =>
    match d.takeRaw x with
    | .more d => s.feed d xs
    | .done r => .next ((s.setWork .idle).commitDecoded r)
    | .failed e => .next ((s.setWork .idle).complete e.code)

/-- R180, R181: a DECODE starts; with W_LEN below 8 it is over at once. -/
def State.beginDecode (s : State) : Outcome :=
  orFault s.wLen.value? fun len =>
    if len.toNat < minFrame then .next (s.complete CodecError.tooShort.code)
    else .next (s.setWork (.decoding ⟨s.mode, len.toNat, 0, false, []⟩))

/-! ### An ENCODE in progress -/

/-- R70: the field bytes of a frame with checksum c, before escaping. -/
def fieldBytes (f : Frame) (c : Half) : List Byte := bytesOf f.type ++ bytesOf f.size ++ f.data ++ bytesOf c

/-- The ENCODE in progress sends the field bytes q, if they are the next ones and the leading delimiter is out. -/
def State.send (s : State) (e : Encoder) (q : List Byte) : Outcome :=
  if e.out ≠ [] ∧ q.isPrefixOf e.todo then
    .next (s.setWork (.encoding { e with todo := e.todo.drop q.length, out := e.out ++ escapeSeq q }))
  else .refused .itemOutOfPlace

/-- R142: the leading delimiter before the first field byte, the trailing one after the last, which completes the
command (R163). -/
def State.sendDelim (s : State) (e : Encoder) : Outcome :=
  if e.out = [] then .next (s.setWork (.encoding { e with out := [delim] }))
  else if e.todo = [] then .next ((s.setWork .idle).commitEncoded (e.out ++ [delim]) e.csum)
  else .refused .itemOutOfPlace

/-- R160, R161: an ENCODE starts; if the buffer does not fit it is over at once. -/
def State.beginEncode (s : State) : Outcome :=
  orFault s.frame? fun f =>
    if fits s.config f.size then
      .next (s.setWork (.encoding ⟨f.checksum s.mode, fieldBytes f (f.checksum s.mode), []⟩))
    else .next (s.complete CodecError.allocationFailure.code)

/-! ### The items -/

/-- A wire item: raw is what a DECODE in progress takes, send what an ENCODE in progress does with it. -/
def wireItem (raw : List Byte) (send : Encoder → Outcome) (s : State) : Outcome :=
  match s.work with
  | .decoding d => s.feed d raw
  | .encoding e => send e
  | .idle => .refused .noCommandInProgress

/-- R76, R142: the raw delimiter; in the field region a DECODE takes it as a literal (R144). -/
def execWireDelim (s : State) : Outcome := wireItem [delim] s.sendDelim s

/-- R76, R143: the escape prefix; an ENCODE sends it only within a pair (R142). -/
def execWireEsc (s : State) : Outcome := wireItem [esc] (fun _ => .refused .itemOutOfPlace) s

/-- R143, R140: the raw byte b; an ENCODE sends b unescaped only if b needs no escape. -/
def execWireLit (b : Byte) (s : State) : Outcome :=
  wireItem [b] (fun e => if special b then .refused .itemOutOfPlace else s.send e [b]) s

/-- R140: the escape pair of b, which an ENCODE sends for a field byte that needs it; a DECODE takes its two bytes. -/
def execEncEscape (b : Byte) (s : State) : Outcome :=
  wireItem [esc, b ^^^ escXor] (fun e => if special b then s.send e [b] else .refused .itemOutOfPlace) s

end Sys2Proof.Machine
end

