-- ==== Sys2Proof/Machine/FrameTypes.lean ====
section
/-! DEFINITION. The frame-type labels (30_encoding.md R74) as the type field of the frame a codec command in progress works
on (log 6). Every value of the field is treated the same way (R75); the label is only a name for its code. -/

namespace Sys2Proof.Machine

/-- R160: the type field is the next thing to send, right after the leading delimiter. -/
def Encoder.atType (e : Encoder) : Bool := e.out == [delim]

/-- R183: the type field is the next thing to read, right after the leading delimiter. -/
def Decoder.atType (d : Decoder) : Bool := d.pos == 1 && d.bytes.isEmpty && !d.escaped

/-- R75, R160, R183: the type field with value v, in its canonical spelling (R141), is sent or taken unchanged. -/
def typeItem (v : Half) (s : State) : Outcome :=
  match s.work with
  | .decoding d => if d.atType then s.feed d (escapeSeq (bytesOf v)) else .refused .itemOutOfPlace
  | .encoding e => if e.atType then s.send e (bytesOf v) else .refused .itemOutOfPlace
  | .idle => .refused .noCommandInProgress

/-- R74: 0x0000, Connect. -/
def execTypeConnect (s : State) : Outcome := typeItem FrameType.connect.code s
/-- R74: 0x0001, StartDataTransfer. -/
def execTypeStartDataTransfer (s : State) : Outcome := typeItem FrameType.startDataTransfer.code s
/-- R74: 0x0002, DataTransfer. -/
def execTypeDataTransfer (s : State) : Outcome := typeItem FrameType.dataTransfer.code s
/-- R74: 0x0003, EndDataTransfer. -/
def execTypeEndDataTransfer (s : State) : Outcome := typeItem FrameType.endDataTransfer.code s
/-- R74: 0x0004, ExecuteData. -/
def execTypeExecuteData (s : State) : Outcome := typeItem FrameType.executeData.code s
/-- R74: 0x0005, Reset. -/
def execTypeReset (s : State) : Outcome := typeItem FrameType.reset.code s
/-- R74: 0x0006, ReadFlash. -/
def execTypeReadFlash (s : State) : Outcome := typeItem FrameType.readFlash.code s
/-- R74: 0x000A, EraseFlash. -/
def execTypeEraseFlash (s : State) : Outcome := typeItem FrameType.eraseFlash.code s
/-- R74: 0x000C, ReadFlashType. -/
def execTypeReadFlashType (s : State) : Outcome := typeItem FrameType.readFlashType.code s
/-- R74: 0x000D, ReadFlashInfo. -/
def execTypeReadFlashInfo (s : State) : Outcome := typeItem FrameType.readFlashInfo.code s
/-- R74: 0x001B, EnableFlash. -/
def execTypeEnableFlash (s : State) : Outcome := typeItem FrameType.enableFlash.code s
/-- R74: 0x0080, Acknowledgement. -/
def execTypeAcknowledgement (s : State) : Outcome := typeItem FrameType.acknowledgement.code s
/-- R74: 0x0081, Banner. -/
def execTypeBanner (s : State) : Outcome := typeItem FrameType.banner.code s
/-- R74: 0x0089, DestinationError. -/
def execTypeDestinationError (s : State) : Outcome := typeItem FrameType.destinationError.code s
/-- R74: 0x008A, SizeError. -/
def execTypeSizeError (s : State) : Outcome := typeItem FrameType.sizeError.code s
/-- R74: 0x008B, VerificationError. -/
def execTypeVerificationError (s : State) : Outcome := typeItem FrameType.verificationError.code s
/-- R74: 0x0093, ReadFlashResponse. -/
def execTypeReadFlashResponse (s : State) : Outcome := typeItem FrameType.readFlashResponse.code s
/-- R74: 0x00A6, VerificationFailure. -/
def execTypeVerificationFailure (s : State) : Outcome := typeItem FrameType.verificationFailure.code s

end Sys2Proof.Machine
end

