-- ==== Sys2Proof/Machine/Operands.lean ====
section
/-! DEFINITION. Every operand form of a command word (30_encoding.md R79, R80; 45_host_access.md): an index of space D, an
index of space W, a wire length and a register selector, each with its range check. The check looks at the operand alone,
so a refusal comes before any fault (60_exceptions.md R245). -/

namespace Sys2Proof.Machine

/-- R212, R217: an index of F_DATA; 65535 is out of range. -/
def withDataIndex (i : Half) (k : Nat → Outcome) : Outcome :=
  if i.toNat < dataCap then k i.toNat else .refused .addressOutOfRange

/-- R214, R218: an index of W_BUF; WIRE_CAP and above are out of range. -/
def withWireIndex (s : State) (i : Wide) (k : Nat → Outcome) : Outcome :=
  if i.toNat < s.config.wireCap then k i.toNat else .refused .addressOutOfRange

/-- R213: a wire length; above WIRE_CAP it is out of range. -/
def withWireLength (s : State) (v : Wide) (k : Wide → Outcome) : Outcome :=
  if v.toNat ≤ s.config.wireCap then k v else .refused .addressOutOfRange

/-- R80: the registers RDREG can name. -/
inductive RegName where
  | status | mode | fType | fSize | fCsum | wLen
  deriving DecidableEq, Repr

/-- R80: the register a selector names; 6 to 15 are reserved. -/
def RegName.ofSel (sel : BitVec 4) : Option RegName :=
  match sel.toNat with
  | 0 => some .status
  | 1 => some .mode
  | 2 => some .fType
  | 3 => some .fSize
  | 4 => some .fCsum
  | 5 => some .wLen
  | _ => none

/-- R82: a value of n bits zero-extended to the 32-bit response word. -/
def zext32 {n : Nat} (v : BitVec n) : Word := v.setWidth 32

/-- R215, R216: the register's value as a response word; none if it is unwritten. STATUS and MODE always hold one. -/
def State.regWord (s : State) : RegName → Option Word
  | .status => some (zext32 s.status)
  | .mode => some (zext32 s.mode.bit)
  | .fType => s.fType.value?.map zext32
  | .fSize => s.fSize.value?.map zext32
  | .fCsum => s.fCsum.value?.map zext32
  | .wLen => s.wLen.value?.map zext32

end Sys2Proof.Machine
end

