-- ==== Sys2Proof/Machine/HostAccess.lean ====
section
/-! DEFINITION. The host access commands (45_host_access.md). None of them writes STATUS (R23, decision D20). -/

namespace Sys2Proof.Machine

/-- R210: F_TYPE <- v. -/
def execWrtype (v : Half) (s : State) : Outcome := .next (s.setType v)

/-- R211: F_SIZE <- v. -/
def execWrsize (v : Half) (s : State) : Outcome := .next (s.setSize v)

/-- R212: F_DATA[i] <- b. -/
def execWrdata (i : Half) (b : Byte) (s : State) : Outcome := withDataIndex i fun k => .next (s.setData k [b])

/-- R213: W_LEN <- v. -/
def execWrwlen (v : Wide) (s : State) : Outcome := withWireLength s v fun v => .next (s.setWireLen v)

/-- R214: W_BUF[i] <- b. -/
def execWrwbuf (i : Wide) (b : Byte) (s : State) : Outcome := withWireIndex s i fun k => .next (s.setWire k [b])

/-- R215, R216: read a register; a reserved selector is refused. -/
def execRdreg (sel : BitVec 4) (s : State) : Outcome :=
  match RegName.ofSel sel with
  | some r => orFault (s.regWord r) fun w => .next (s.respond w)
  | none => .refused .reservedEncoding

/-- R217: read F_DATA[i]. -/
def execRddata (i : Half) (s : State) : Outcome :=
  withDataIndex i fun k => orFault (s.fData.read k) fun b => .next (s.respond (zext32 b))

/-- R218: read W_BUF[i]. -/
def execRdwbuf (i : Wide) (s : State) : Outcome :=
  withWireIndex s i fun k => orFault (s.wBuf.read k) fun b => .next (s.respond (zext32 b))

end Sys2Proof.Machine
end

