-- ==== Sys2Proof/Machine/Reserved.lean ====
section
/-! DEFINITION. The reserved opcodes (30_encoding.md R81): executing one is refuse(ReservedEncoding). -/

namespace Sys2Proof.Machine

/-- R81, R247. -/
def refuseReserved : Outcome := .refused .reservedEncoding

/-- R81: opcode 0x0. -/
def execReservedOp0 (_x : BitVec 28) (_s : State) : Outcome := refuseReserved
/-- R81: opcode 0xD. -/
def execReservedOpD (_x : BitVec 28) (_s : State) : Outcome := refuseReserved
/-- R81: opcode 0xE. -/
def execReservedOpE (_x : BitVec 28) (_s : State) : Outcome := refuseReserved
/-- R81: opcode 0xF. -/
def execReservedOpF (_x : BitVec 28) (_s : State) : Outcome := refuseReserved

end Sys2Proof.Machine
end

