-- ==== Sys2Proof/Machine/Selector.lean ====
section
/-! DEFINITION. The checksum selector (40_mode.md): SETMODE. -/

namespace Sys2Proof.Machine

/-- R100: MODE <- m. -/
def execSetmode (m : BitVec 1) (s : State) : Outcome := .next (s.setMode (Mode.ofBit m))

end Sys2Proof.Machine
end

