-- ==== Sys2Proof/Machine/Dispatch.lean ====
section
/-! DEFINITION. One arm an instruction. -/

namespace Sys2Proof.Machine

def exec (i : Instr) (s : State) : Host.Outcome State Fault Refusal :=
  match i with
  | .setmode m => Sys2Proof.Machine.execSetmode m s
  | .csum => Sys2Proof.Machine.execCsum s
  | .encode => Sys2Proof.Machine.execEncode s
  | .decode => Sys2Proof.Machine.execDecode s
  | .wrtype v => Sys2Proof.Machine.execWrtype v s
  | .wrsize v => Sys2Proof.Machine.execWrsize v s
  | .wrdata idx b => Sys2Proof.Machine.execWrdata idx b s
  | .wrwlen v => Sys2Proof.Machine.execWrwlen v s
  | .wrwbuf idx b => Sys2Proof.Machine.execWrwbuf idx b s
  | .rdreg sel => Sys2Proof.Machine.execRdreg sel s
  | .rddata idx => Sys2Proof.Machine.execRddata idx s
  | .rdwbuf idx => Sys2Proof.Machine.execRdwbuf idx s
  | .reservedOp0 x => Sys2Proof.Machine.execReservedOp0 x s
  | .reservedOpD x => Sys2Proof.Machine.execReservedOpD x s
  | .reservedOpE x => Sys2Proof.Machine.execReservedOpE x s
  | .reservedOpF x => Sys2Proof.Machine.execReservedOpF x s
  | .typeConnect => Sys2Proof.Machine.execTypeConnect s
  | .typeStartDataTransfer => Sys2Proof.Machine.execTypeStartDataTransfer s
  | .typeDataTransfer => Sys2Proof.Machine.execTypeDataTransfer s
  | .typeEndDataTransfer => Sys2Proof.Machine.execTypeEndDataTransfer s
  | .typeExecuteData => Sys2Proof.Machine.execTypeExecuteData s
  | .typeReset => Sys2Proof.Machine.execTypeReset s
  | .typeReadFlash => Sys2Proof.Machine.execTypeReadFlash s
  | .typeEraseFlash => Sys2Proof.Machine.execTypeEraseFlash s
  | .typeReadFlashType => Sys2Proof.Machine.execTypeReadFlashType s
  | .typeReadFlashInfo => Sys2Proof.Machine.execTypeReadFlashInfo s
  | .typeEnableFlash => Sys2Proof.Machine.execTypeEnableFlash s
  | .typeAcknowledgement => Sys2Proof.Machine.execTypeAcknowledgement s
  | .typeBanner => Sys2Proof.Machine.execTypeBanner s
  | .typeDestinationError => Sys2Proof.Machine.execTypeDestinationError s
  | .typeSizeError => Sys2Proof.Machine.execTypeSizeError s
  | .typeVerificationError => Sys2Proof.Machine.execTypeVerificationError s
  | .typeReadFlashResponse => Sys2Proof.Machine.execTypeReadFlashResponse s
  | .typeVerificationFailure => Sys2Proof.Machine.execTypeVerificationFailure s
  | .wireDelim => Sys2Proof.Machine.execWireDelim s
  | .wireEsc => Sys2Proof.Machine.execWireEsc s
  | .wireLit b => Sys2Proof.Machine.execWireLit b s
  | .encEscape b => Sys2Proof.Machine.execEncEscape b s

end Sys2Proof.Machine
end

