-- ==== Sys2Proof/Machine/Fetch.lean ====
section
/-! DEFINITION. What the block does next: the oldest command word the host has issued (00_scope.md R9), or, while a codec
command is in progress, that command's next item (log 6); nothing while the host has issued nothing (R271, log 17); and no
step at all once a mark is set (R246, R247). Then how the host puts a table row where this is read. -/

namespace Sys2Proof.Machine

/-- R76: the item that the raw byte b is for a DECODE in progress. -/
def Decoder.nextItem (d : Decoder) (b : Byte) : Instr :=
  if b = delim ∧ (d.place = .leading ∨ d.place = .trailing) then .wireDelim
  else if b = esc then .wireEsc
  else .wireLit b

/-- R74: the label of the type field an ENCODE in progress sends next, if it is at the type field and there is one. -/
def Encoder.label (e : Encoder) : Option FrameType :=
  match e.todo with
  | hi :: lo :: _ => if e.atType then FrameType.ofCode (be16 hi lo) else none
  | _ => none

/-- R160, R140, R142: the item an ENCODE in progress sends next. -/
def Encoder.nextItem (e : Encoder) : Instr :=
  match e.label, e.todo with
  | some t, _ => t.instr
  | none, b :: _ => if e.out = [] then .wireDelim else if special b then .encEscape b else .wireLit b
  | none, [] => .wireDelim

/-- The next instruction, with the state it runs in; none while the block waits for a command. -/
def fetch (s : State) : Host.Outcome (Option (Instr × State)) Fault Refusal :=
  if s.faultMark then .fault .faultMarkSet
  else if s.refusalMark then .refused .refusalMarkSet
  else
    match s.work with
    | .decoding d =>
      match s.wBuf.read d.pos with
      | some b => .next (some (d.nextItem b, s))
      | none => .fault .unwrittenRead                                    -- R31, R180
    | .encoding e => .next (some (e.nextItem, s))
    | .idle =>
      match s.pending with
      | [] => .next none
      | w :: ws =>
        match decode (.command w) with
        | .ok i => .next (some (i, s.setPending ws))
        | .error _ => .refused .reservedEncoding

/-- A DECODE in progress whose next raw byte is b: at the leading delimiter for 0x7E, else at the first field byte. -/
def State.placeRaw (s : State) (b : Byte) : State :=
  if b = delim then (s.setWire 0 [b]).setWork (.decoding ⟨s.mode, minFrame, 0, false, []⟩)
  else (s.setWire 1 [b]).setWork (.decoding ⟨s.mode, minFrame, 1, false, []⟩)

/-- An ENCODE in progress that has sent its leading delimiter and whose next field bytes are q. -/
def State.placeFields (s : State) (q : List Byte) : State := s.setWork (.encoding ⟨0#16, q, [delim]⟩)

/-- The table row c stands where fetch reads next: a command word first among the host's words; any other row as the next
item of a codec command in progress (log 13). -/
def State.place (s : State) (c : Code) : State :=
  let s := (s.setFaultMark false).setRefusalMark false
  match c with
  | .command w => (s.setWork .idle).setPending (w :: s.pending)
  | .frameType v => s.placeFields (bytesOf v)
  | .wirePair v => s.placeFields [loByte v ^^^ escXor]
  | .wireByte _ b => s.placeRaw b

end Sys2Proof.Machine
end

