-- ==== Sys2Proof/Machine/Step.lean ====
section
/-! DEFINITION. One step of the block (00_scope.md R10). -/

namespace Sys2Proof.Machine

/-- Fetch the next instruction and run it; while there is none, the block holds all of its state (R254, R271). -/
def step (s : State) : Host.Outcome State Fault Refusal :=
  match fetch s with
  | .next (some (i, t)) => exec i t
  | .next none => .next s
  | .fault r => .fault r
  | .refused r => .refused r

/-- The row whose nbits bits are w stands where step fetches its next instruction (log 13). A width that is none of the
table's is taken as a command word. -/
def State.withFetchWord (s : State) (nbits w : Nat) : State :=
  s.place ((tableCode nbits w).getD (.command (BitVec.ofNat 32 w)))

end Sys2Proof.Machine
end

