-- ==== Sys2Proof/Machine/Assembler.lean ====
section
/-! DEFINITION. The assembly syntax of 30_encoding.md R83 and the two pseudo-instructions of R84. What R83 leaves open is
log 19. -/

namespace Sys2Proof.Machine

/-! ### The pseudo-instructions -/

/-- WRDATA k, b0, then WRDATA k+1, b1, and so on. -/
def dataWrites (k : Nat) : List Byte → List Instr
  | [] => []
  | b :: bs => .wrdata (BitVec.ofNat 16 k) b :: dataWrites (k + 1) bs

/-- WRWBUF k, b0, then WRWBUF k+1, b1, and so on. -/
def wireWrites (k : Nat) : List Byte → List Instr
  | [] => []
  | b :: bs => .wrwbuf (BitVec.ofNat 18 k) b :: wireWrites (k + 1) bs

/-- R84: LOADFRAME t, [b0, ...]. -/
def loadFrame (t : Half) (bs : List Byte) : List Instr :=
  .wrtype t :: .wrsize (BitVec.ofNat 16 bs.length) :: dataWrites 0 bs

/-- R84: LOADWIRE [w0, ...]. -/
def loadWire (ws : List Byte) : List Instr := wireWrites 0 ws ++ [.wrwlen (BitVec.ofNat 18 ws.length)]

/-! ### Lines of text -/

/-- A token of a line. -/
inductive Tok where
  | word (cs : List Char)
  | comma
  | listOpen
  | listClose
  deriving DecidableEq, Repr

/-- The word read so far, in reverse, before the tokens ts. -/
def endWord (acc : List Char) (ts : List Tok) : List Tok := if acc = [] then ts else .word acc.reverse :: ts

/-- The tokens of a line; acc is the word read so far, in reverse. -/
def lex (acc : List Char) : List Char → List Tok
  | [] => endWord acc []
  | c :: cs =>
    if c = ' ' ∨ c = '\t' then endWord acc (lex [] cs)
    else if c = ',' then endWord acc (.comma :: lex [] cs)
    else if c = '[' then endWord acc (.listOpen :: lex [] cs)
    else if c = ']' then endWord acc (.listClose :: lex [] cs)
    else lex (c :: acc) cs

/-- The value of a digit of numbers to base 16. -/
def digit (c : Char) : Option Nat :=
  if '0' ≤ c ∧ c ≤ '9' then some (c.toNat - '0'.toNat)
  else if 'a' ≤ c ∧ c ≤ 'f' then some (c.toNat - 'a'.toNat + 10)
  else if 'A' ≤ c ∧ c ≤ 'F' then some (c.toNat - 'A'.toNat + 10)
  else none

/-- The digits cs to a base, after the value acc. -/
def digits (base acc : Nat) : List Char → Option Nat
  | [] => some acc
  | c :: cs =>
    match digit c with
    | some v => if v < base then digits base (acc * base + v) cs else none
    | none => none

/-- R83: a number in decimal or with a 0x prefix. -/
def number : List Char → Option Nat
  | [] => none
  | ['0', 'x'] => none
  | '0' :: 'x' :: cs => digits 16 0 cs
  | cs => digits 10 0 cs

/-- A number that fits in a field of n bits. -/
def operand (n : Nat) (cs : List Char) : Option (BitVec n) :=
  match number cs with
  | some v => if v < 2 ^ n then some (BitVec.ofNat n v) else none
  | none => none

/-- R83: the operand of SETMODE. -/
def modeOperand (cs : List Char) : Option (BitVec 1) :=
  if cs = "bootrom".toList then some 0#1 else if cs = "fdl".toList then some 1#1 else none

/-- R83: the operand of RDREG, a register's name or a selector. -/
def selOperand (cs : List Char) : Option (BitVec 4) :=
  if cs = "status".toList then some 0#4
  else if cs = "mode".toList then some 1#4
  else if cs = "type".toList then some 2#4
  else if cs = "size".toList then some 3#4
  else if cs = "csum".toList then some 4#4
  else if cs = "wlen".toList then some 5#4
  else operand 4 cs

/-- The bytes after a comma or a list's opening, up to its closing, which ends the line. -/
def listRest : List Tok → Option (List Byte)
  | [.word a, .listClose] => (operand 8 a).map (fun b => [b])
  | .word a :: .comma :: ts =>
    match operand 8 a, listRest ts with
    | some b, some bs => some (b :: bs)
    | _, _ => none
  | _ => none

/-- R84: a list of bytes in brackets, which may be empty. -/
def byteList : List Tok → Option (List Byte)
  | [.listOpen, .listClose] => some []
  | .listOpen :: ts => listRest ts
  | _ => none

/-- R83: a command without operands. -/
def asm0 (m : List Char) : Option (List Instr) :=
  if m = "CSUM".toList then some [.csum]
  else if m = "ENCODE".toList then some [.encode]
  else if m = "DECODE".toList then some [.decode]
  else none

/-- R83: a command with one operand. -/
def asm1 (m a : List Char) : Option (List Instr) :=
  if m = "SETMODE".toList then (modeOperand a).map (fun m => [.setmode m])
  else if m = "WRTYPE".toList then (operand 16 a).map (fun v => [.wrtype v])
  else if m = "WRSIZE".toList then (operand 16 a).map (fun v => [.wrsize v])
  else if m = "WRWLEN".toList then (operand 18 a).map (fun v => [.wrwlen v])
  else if m = "RDREG".toList then (selOperand a).map (fun r => [.rdreg r])
  else if m = "RDDATA".toList then (operand 16 a).map (fun i => [.rddata i])
  else if m = "RDWBUF".toList then (operand 18 a).map (fun i => [.rdwbuf i])
  else none

/-- R83: a command with an index and a byte. -/
def asm2 (m a b : List Char) : Option (List Instr) :=
  if m = "WRDATA".toList then
    match operand 16 a, operand 8 b with
    | some i, some b => some [.wrdata i b]
    | _, _ => none
  else if m = "WRWBUF".toList then
    match operand 18 a, operand 8 b with
    | some i, some b => some [.wrwbuf i b]
    | _, _ => none
  else none

/-- R84: LOADFRAME t, [ ... ]; at most DATA_CAP bytes, so that every WRDATA index exists. -/
def asmLoadFrame (a : List Char) (ts : List Tok) : Option (List Instr) :=
  match operand 16 a, byteList ts with
  | some t, some bs => if bs.length < 65536 then some (loadFrame t bs) else none
  | _, _ => none

/-- R84: LOADWIRE [ ... ]; at most as many bytes as an 18-bit length names. -/
def asmLoadWire (ts : List Tok) : Option (List Instr) :=
  match byteList ts with
  | some ws => if ws.length < 2 ^ 18 then some (loadWire ws) else none
  | none => none

/-- R83, R84: the commands of a line's tokens. -/
def asmTokens : List Tok → Option (List Instr)
  | [] => some []
  | [.word m] => asm0 m
  | [.word m, .word a] => asm1 m a
  | [.word m, .word a, .comma, .word b] => asm2 m a b
  | .word m :: .word a :: .comma :: ts => if m = "LOADFRAME".toList then asmLoadFrame a ts else none
  | .word m :: ts => if m = "LOADWIRE".toList then asmLoadWire ts else none
  | _ => none

/-- R83: a line; one that begins with ; is a comment. -/
def asmLine : List Char → Option (List Instr)
  | ';' :: _ => some []
  | cs => asmTokens (lex [] cs)

/-- A text, line by line, as the commands it stands for. -/
def assemble : List String → Option (List Instr)
  | [] => some []
  | l :: ls =>
    match asmLine l.toList, assemble ls with
    | some is, some js => some (is ++ js)
    | _, _ => none

end Sys2Proof.Machine
end

