-- ==== Sys2Proof/Safety.lean ====
section
/-! DEFINITION. The terms claims are stated in: a block that is ready for a command, the invariant every step keeps, and
runs that neither fault nor are refused (00_scope.md R10). -/

namespace Sys2Proof

/-- R23: the three codec commands. -/
def Instr.isCodec : Instr → Bool
  | .csum | .encode | .decode => true
  | _ => false

/-- R82: the three read commands. -/
def Instr.isRead : Instr → Bool
  | .rdreg _ | .rddata _ | .rdwbuf _ => true
  | _ => false

/-- R76: the raw byte that a wire item is. -/
def Instr.rawByte? : Instr → Option Byte
  | .wireDelim => some 0x7E#8
  | .wireEsc => some 0x7D#8
  | .wireLit b => some b
  | _ => none

end Sys2Proof

namespace Sys2Proof.Machine

/-- R9, R30: the block is between two commands and has not stopped. -/
structure State.Ready (s : State) : Prop where
  faultMark : s.faultMark = false
  refusalMark : s.refusalMark = false
  work : s.work = .idle

/-- The working state stays within the buffers: a DECODE in progress reads below W_LEN (R196), an ENCODE in progress
writes below WIRE_CAP (R162). -/
def Work.Ok (cap : Nat) : Work → Prop
  | .idle => True
  | .decoding d => minFrame ≤ d.len ∧ d.len ≤ cap ∧ d.pos < d.len
  | .encoding e => (if e.out = [] then 1 else e.out.length) + 2 * e.todo.length + 1 ≤ cap

/-- What holds of the block at all times: the parameter's range (R6), STATUS codes 6 to 15 never written (R23), W_LEN at
most WIRE_CAP (R29), the two buffers canonical and within their sizes (R26, R29, R51), and the working state. -/
structure State.Inv (s : State) : Prop where
  config : s.config.Ok
  status : s.status.toNat ≤ 5
  wLen : ∀ v, s.wLen = .written v → v.toNat ≤ s.config.wireCap
  dataWf : s.fData.wf
  dataBelow : Memory.Below dataCap s.fData
  wireWf : s.wBuf.wf
  wireBelow : Memory.Below s.config.wireCap s.wBuf
  work : s.work.Ok s.config.wireCap

/-- The parts of the state, for saying what a step leaves unchanged. -/
inductive Part where
  | config | mode | status | fType | fSize | fCsum | wLen | fData | wBuf | faultMark | refusalMark | work | pending
  | responses
  deriving DecidableEq, Repr

/-- A part is the same in two states; a buffer is when every byte of it reads the same. -/
def Part.Same (s t : State) : Part → Prop
  | .config => t.config = s.config
  | .mode => t.mode = s.mode
  | .status => t.status = s.status
  | .fType => t.fType = s.fType
  | .fSize => t.fSize = s.fSize
  | .fCsum => t.fCsum = s.fCsum
  | .wLen => t.wLen = s.wLen
  | .fData => ∀ k, t.fData.read k = s.fData.read k
  | .wBuf => ∀ k, t.wBuf.read k = s.wBuf.read k
  | .faultMark => t.faultMark = s.faultMark
  | .refusalMark => t.refusalMark = s.refusalMark
  | .work => t.work = s.work
  | .pending => t.pending = s.pending
  | .responses => t.responses = s.responses

/-- Every part but those listed is the same in s and in t. -/
def KeepsAllBut (ps : List Part) (s t : State) : Prop := ∀ p, p ∉ ps → p.Same s t

/-- The bytes bs stand at k, k+1, ... in the buffer m. -/
def Holds (m : Memory) (k : Nat) (bs : List Byte) : Prop := ∀ j < bs.length, m.read (k + j) = bs[j]?

/-- The buffers m and m' read the same outside the n bytes from k. -/
def SameOutside (m m' : Memory) (k n : Nat) : Prop := ∀ a, a < k ∨ k + n ≤ a → m'.read a = m.read a

/-- The codec command in progress in s goes on, with working state w, and nothing else changes (R30). -/
def GoesOn (o : Outcome) (s : State) (w : Work) : Prop := ∃ t, o = .next t ∧ t.work = w ∧ KeepsAllBut [.work] s t

/-- The codec command in progress in s completes with an error: its code is written to STATUS, and nothing else (R192). -/
def EndsWith (o : Outcome) (s : State) (code : BitVec 4) : Prop :=
  ∃ t, o = .next t ∧ t.status = code ∧ t.work = .idle ∧ KeepsAllBut [.status, .work] s t

/-- The match and the mask of the twelve command rows of opcode_table.json. -/
def commandRows : List (Word × Word) :=
  [(0x10000000#32, 0xFFFFFFFE#32), (0x20000000#32, 0xFFFFFFFF#32), (0x30000000#32, 0xFFFFFFFF#32),
    (0x40000000#32, 0xFFFFFFFF#32), (0x50000000#32, 0xFFFF0000#32), (0x60000000#32, 0xFFFF0000#32),
    (0x70000000#32, 0xFF000000#32), (0x80000000#32, 0xFFFC0000#32), (0x90000000#32, 0xFC000000#32),
    (0xA0000000#32, 0xFFFFFFF0#32), (0xB0000000#32, 0xFF0000FF#32), (0xC0000000#32, 0xFC0000FF#32)]

/-- R81: the word matches no command row, or it is RDREG with a selector above 5. -/
def reservedWord (w : Word) : Bool :=
  commandRows.all (fun r => w &&& r.2 != r.1) || (w &&& 0xFFFFFFF0#32 == 0xA0000000#32 && decide (5 < w.toNat % 16))

/-- R119: the sum over j < floor(n/2) of be16(d[2j], d[2j+1]), plus d[n-1] when n is odd. -/
def wordSum (d : List Byte) : Nat :=
  ((List.range (d.length / 2)).map (fun j => 256 * (d.getD (2 * j) 0#8).toNat + (d.getD (2 * j + 1) 0#8).toNat)).sum
    + if d.length % 2 = 1 then (d.getD (d.length - 1) 0#8).toNat else 0

/-- R118: one fold of the carries, on unbounded integers. -/
def foldNat (n : Nat) : Nat := n / 65536 + n % 65536

/-- R72: e, the number of bytes that need escaping. -/
def escapes (q : List Byte) : Nat := q.countP special

/-- The instructions is, one after the other. -/
def execAll : List Instr → State → Outcome
  | [], s => .next s
  | i :: is, s =>
    match exec i s with
    | .next t => execAll is t
    | .fault r => .fault r
    | .refused r => .refused r

/-- Steps, at most fuel of them, until no codec command is in progress. -/
def runWork : Nat → State → Outcome
  | 0, s => .next s
  | fuel + 1, s =>
    if s.work = .idle then .next s
    else
      match step s with
      | .next t => runWork fuel t
      | .fault r => .fault r
      | .refused r => .refused r

/-- k steps from s complete: none of them faults and none is refused. -/
def SafeRun (k : Nat) (s : State) : Prop := ∃ t, Sys2Proof.core.run k s = .next t

end Sys2Proof.Machine
end

