-- ==== Sys2Proof/Certificates/Slice0/Obligations.lean ====
section
/-! DEFINITION. The statements for the provers, each a numbered rule of spec/ or a property of the whole machine. -/

open Sys2Proof Sys2Proof.Machine

/-! ### Encoding (30_encoding.md) -/

/-- R74, R76, R78, R140: no bit of a row's encoding is dropped; decoding what encode writes gives the instruction back,
with every operand at every value its field admits. -/
def Obligations.DecodeOfEncodeIsIdentity : Prop := ∀ i : Instr, i.wf = true → decode (encode i) = .ok i

/-- R78: a row is spelled in one way only, and whatever is decoded is well formed. -/
def Obligations.EveryCodeHasOneMeaning : Prop :=
  ∀ (c : Code) (i : Instr), decode c = .ok i → encode i = c ∧ i.wf = true

/-- R74, R76, R78, R79, R140: command words written out from the layout table, the example words of R100 and of R210 to
R218, the eighteen codes of R74, and a raw byte and an escape pair. -/
def Obligations.ExampleWordsDecode : Prop :=
  decode (.command 0x10000001#32) = .ok (.setmode 1#1) ∧ decode (.command 0x20000000#32) = .ok .csum ∧
  decode (.command 0x30000000#32) = .ok .encode ∧ decode (.command 0x40000000#32) = .ok .decode ∧
  decode (.command 0x50000080#32) = .ok (.wrtype 0x0080#16) ∧ decode (.command 0x60000004#32) = .ok (.wrsize 4#16) ∧
  decode (.command 0x7000007E#32) = .ok (.wrdata 0#16 0x7E#8) ∧
  decode (.command 0x70FFFE7E#32) = .ok (.wrdata 0xFFFE#16 0x7E#8) ∧
  decode (.command 0x80000008#32) = .ok (.wrwlen 8#18) ∧ decode (.command 0x8002000E#32) = .ok (.wrwlen 0x2000E#18) ∧
  decode (.command 0x9000007E#32) = .ok (.wrwbuf 0#18 0x7E#8) ∧
  decode (.command 0x93FFFF5A#32) = .ok (.wrwbuf 0x3FFFF#18 0x5A#8) ∧
  decode (.command 0xA0000001#32) = .ok (.rdreg 1#4) ∧ decode (.command 0xA0000005#32) = .ok (.rdreg 5#4) ∧
  decode (.command 0xB0000000#32) = .ok (.rddata 0#16) ∧ decode (.command 0xB0123400#32) = .ok (.rddata 0x1234#16) ∧
  decode (.command 0xC0000700#32) = .ok (.rdwbuf 7#18) ∧
  decode (.frameType 0x0000#16) = .ok .typeConnect ∧ decode (.frameType 0x0001#16) = .ok .typeStartDataTransfer ∧
  decode (.frameType 0x0002#16) = .ok .typeDataTransfer ∧ decode (.frameType 0x0003#16) = .ok .typeEndDataTransfer ∧
  decode (.frameType 0x0004#16) = .ok .typeExecuteData ∧ decode (.frameType 0x0005#16) = .ok .typeReset ∧
  decode (.frameType 0x0006#16) = .ok .typeReadFlash ∧ decode (.frameType 0x000A#16) = .ok .typeEraseFlash ∧
  decode (.frameType 0x000C#16) = .ok .typeReadFlashType ∧ decode (.frameType 0x000D#16) = .ok .typeReadFlashInfo ∧
  decode (.frameType 0x001B#16) = .ok .typeEnableFlash ∧ decode (.frameType 0x0080#16) = .ok .typeAcknowledgement ∧
  decode (.frameType 0x0081#16) = .ok .typeBanner ∧ decode (.frameType 0x0089#16) = .ok .typeDestinationError ∧
  decode (.frameType 0x008A#16) = .ok .typeSizeError ∧ decode (.frameType 0x008B#16) = .ok .typeVerificationError ∧
  decode (.frameType 0x0093#16) = .ok .typeReadFlashResponse ∧
  decode (.frameType 0x00A6#16) = .ok .typeVerificationFailure ∧
  decode (.wireByte .field 0x7E#8) = .ok (.wireLit 0x7E#8) ∧ decode (.wirePair 0x7D5E#16) = .ok (.encEscape 0x7E#8)

/-- R81: exactly the reserved words are refused as reserved, and refusing one sets the refusal mark (R247) and changes
nothing else. -/
def Obligations.ReservedWordsAreRefused : Prop :=
  ∀ (s : State) (w : Word) (ws : List Word), s.Ready → s.pending = w :: ws →
    (step s = .refused .reservedEncoding ↔ reservedWord w = true) ∧
    (reservedWord w = true → (s.afterOutcome (step s)).refusalMark = true ∧
      KeepsAllBut [.refusalMark] s (s.afterOutcome (step s)))

/-- R81: the four reserved opcodes are refused, whatever the rest of the word and the state. -/
def Obligations.ReservedOpcodesAreRefused : Prop :=
  ∀ (x : BitVec 28) (s : State),
    exec (.reservedOp0 x) s = .refused .reservedEncoding ∧ exec (.reservedOpD x) s = .refused .reservedEncoding ∧
    exec (.reservedOpE x) s = .refused .reservedEncoding ∧ exec (.reservedOpF x) s = .refused .reservedEncoding

/-! ### Steps, reset and marks (00_scope.md R9, R10; 60_exceptions.md; 70_reset_and_hazards.md) -/

/-- R9: the block runs the oldest command word the host has issued: a step is the meaning of the instruction it spells, in
the state without that word. Model's choice (log 17), from R271 and R254: with no command issued a step changes nothing. -/
def Obligations.StepRunsTheOldestCommand : Prop :=
  ∀ s : State, s.Ready →
    (∀ w ws i, s.pending = w :: ws → decode (.command w) = .ok i → step s = exec i (s.setPending ws)) ∧
    (∀ w ws r, s.pending = w :: ws → decode (.command w) = .error r → step s = .refused .reservedEncoding) ∧
    (s.pending = [] → step s = .next s)

/-- Model's choice (log 6): while a codec command is in progress, a step runs its next item: the raw byte at the cursor of
a DECODE, classified by position (R76), or the next thing an ENCODE sends. -/
def Obligations.StepRunsTheNextItem : Prop :=
  ∀ s : State, s.faultMark = false → s.refusalMark = false →
    (∀ d b, s.work = .decoding d → s.wBuf.read d.pos = some b → step s = exec (d.nextItem b) s ∧
      ((d.place = .leading ∨ d.place = .trailing) → b = 0x7E#8 → decode (.wireByte .delimiter b) = .ok (d.nextItem b)) ∧
      (∀ ph, d.place = .inField ph → decode (.wireByte .field b) = .ok (d.nextItem b))) ∧
    (∀ d, s.work = .decoding d → s.wBuf.read d.pos = none → step s = .fault .unwrittenRead) ∧
    (∀ e, s.work = .encoding e → step s = exec e.nextItem s)

/-- Model's choice (log 13): what withFetchWord puts in place is what the next step fetches, for every row. -/
def Obligations.PlacedRowIsFetched : Prop :=
  ∀ (s : State) (nbits w : Nat) (i : Instr), decodeTableWord nbits w = some i →
    ∃ t, fetch (s.withFetchWord nbits w) = .next (some (i, t)) ∧ step (s.withFetchWord nbits w) = exec i t

/-- R270: its table, for every capacity, is State.resetUnwritten; no step clears a mark, so reset is the only event that
does. Model's choice (log 2): the state after reset is that table with 0 in the four registers it leaves without a value, so
that every register can be read and every codec command completes right after reset. Model's choice (log 20): the reset
event also empties the host's two lists, which resetNow = resetWith says as well. -/
def Obligations.ResetLeavesWhatTheTableSays : Prop :=
  (∀ c : Config,
    (State.resetUnwritten c).mode.bit = 0#1 ∧ (State.resetUnwritten c).status = 0#4 ∧
    (State.resetUnwritten c).fType = .unwritten ∧ (State.resetUnwritten c).fSize = .unwritten ∧
    (State.resetUnwritten c).fCsum = .unwritten ∧ (State.resetUnwritten c).wLen = .unwritten ∧
    (∀ k, (State.resetUnwritten c).fData.read k = none) ∧ (∀ k, (State.resetUnwritten c).wBuf.read k = none) ∧
    (State.resetUnwritten c).faultMark = false ∧ (State.resetUnwritten c).refusalMark = false ∧
    (State.resetUnwritten c).work = .idle) ∧
  (∀ c : Config,
    (State.resetWith c).fType = .written 0#16 ∧ (State.resetWith c).fSize = .written 0#16 ∧
    (State.resetWith c).fCsum = .written 0#16 ∧ (State.resetWith c).wLen = .written 0#18 ∧
    KeepsAllBut [.fType, .fSize, .fCsum, .wLen] (State.resetUnwritten c) (State.resetWith c) ∧
    (∀ sel : BitVec 4, sel.toNat ≤ 5 → ∃ t, exec (.rdreg sel) (State.resetWith c) = .next t) ∧
    (∃ t, exec .csum (State.resetWith c) = .next t) ∧ (∃ t, exec .encode (State.resetWith c) = .next t) ∧
    (∃ t, exec .decode (State.resetWith c) = .next t)) ∧
  (∀ s : State, s.resetNow = State.resetWith s.config) ∧
  (∀ s : State, (s.faultMark = true → (s.afterOutcome (step s)).faultMark = true) ∧
    (s.refusalMark = true → (s.afterOutcome (step s)).refusalMark = true))

/-- R246: a fault writes nothing but the sticky fault mark, and the block has no further step until reset. Model's choice
(log 5): that there is no further step is said by the outcome faultMarkSet, a reason R246 does not name. -/
def Obligations.FaultStopsTheBlock : Prop :=
  ∀ s : State, step s = .fault .unwrittenRead →
    (s.afterOutcome (step s)).faultMark = true ∧ KeepsAllBut [.faultMark] s (s.afterOutcome (step s)) ∧
    step (s.afterOutcome (step s)) = .fault .faultMarkSet ∧
    (s.afterOutcome (step s)).resetNow.faultMark = false

/-- R247: a refusal writes nothing but the sticky refusal mark, and the block has no further step until reset. Model's
choice (logs 5 and 7): it says so of the model's own refusals too (refusalMarkSet, noCommandInProgress, itemOutOfPlace),
which R247 does not name, and that there is no further step is said by the outcome refusalMarkSet. -/
def Obligations.RefusalStopsTheBlock : Prop :=
  ∀ (s : State) (r : Refusal), step s = .refused r → s.faultMark = false →
    (s.afterOutcome (step s)).refusalMark = true ∧ KeepsAllBut [.refusalMark] s (s.afterOutcome (step s)) ∧
    step (s.afterOutcome (step s)) = .refused .refusalMarkSet ∧
    (s.afterOutcome (step s)).resetNow.refusalMark = false

/-- R270, R6: the invariant holds at reset, for every capacity the rule allows, and in the table of R270 as it stands. (The
four registers that hold 0 after reset are the model's choice, log 2.) -/
def Obligations.ResetMeetsTheInvariant : Prop :=
  ∀ c : Config, c.Ok → (State.resetWith c).Inv ∧ (State.resetUnwritten c).Inv

/-- R6, R23, R26, R29, R51, R162, R196: whatever state meets the invariant, a step leaves one that meets it. -/
def Obligations.EveryStepKeepsTheInvariant : Prop := ∀ s t : State, s.Inv → step s = .next t → t.Inv

/-- R30: a command word leaves no working state behind, and sets no mark when it completes. -/
def Obligations.EveryStepKeepsTheBlockReady : Prop := ∀ s t : State, s.Ready → step s = .next t → t.Ready

/-- R6: WIRE_CAP is a parameter; no instruction changes it, and none issues a command. -/
def Obligations.NoInstructionChangesTheParameter : Prop :=
  ∀ (i : Instr) (s t : State), exec i s = .next t →
    t.config = s.config ∧ t.pending = s.pending ∧ t.faultMark = s.faultMark ∧ t.refusalMark = s.refusalMark

/-! ### SETMODE (40_mode.md) and who writes what (10_state.md) -/

/-- R100: SETMODE m writes m to MODE, whatever the state, and nothing else; setting the active mode changes nothing. -/
def Obligations.SetmodeSelectsTheChecksum : Prop :=
  ∀ (m : BitVec 1) (s : State),
    encode (.setmode m) = .command (0x10000000#32 ||| m.setWidth 32) ∧
    (∀ w : Word, w.toNat / 2 ^ 28 = 1 → w.toNat / 2 % 2 ^ 27 ≠ 0 → decode (.command w) = .error .reservedBit) ∧
    ∃ t, exec (.setmode m) s = .next t ∧ t.mode.bit = m ∧ KeepsAllBut [.mode] s t ∧ (s.mode.bit = m → t = s)

/-- R22: only SETMODE writes MODE. -/
def Obligations.OnlySetmodeWritesMode : Prop :=
  ∀ (i : Instr) (s t : State), exec i s = .next t → (∀ m, i ≠ .setmode m) → t.mode = s.mode

/-- R23: SETMODE and the host access commands leave STATUS alone. (A wire item changes STATUS only as the last item of a
codec command in progress.) -/
def Obligations.OnlyCodecCommandsWriteStatus : Prop :=
  ∀ (i : Instr) (s t : State), exec i s = .next t → s.work = .idle → i.isCodec = false → t.status = s.status

/-- R82: only the three read commands return a response word, and each returns exactly one. -/
def Obligations.OnlyReadCommandsRespond : Prop :=
  ∀ (i : Instr) (s t : State), exec i s = .next t →
    (i.isRead = false → t.responses = s.responses) ∧ (i.isRead = true → ∃ w, t.responses = s.responses ++ [w])

/-! ### Checksums (41_checksum.md) -/

/-- R111: crc_step, the table it generates, and the 256 printed constants are the same. -/
def Obligations.CrcTableIsThePrintedOne : Prop :=
  (∀ c : Half, crcStep c = crcShift (crcShift (crcShift (crcShift (crcShift (crcShift (crcShift (crcShift c)))))))) ∧
  (∀ c : Half, crcShift c = if c.getLsbD 15 then (c <<< 1) ^^^ 0x1021#16 else c <<< 1) ∧
  crcPrinted.length = 256 ∧ (∀ i : Byte, crcPrinted[i.toNat]? = some (crcStep (i.setWidth 16 <<< 8))) ∧
  (∀ i : Byte, crcTable i = crcStep (i.setWidth 16 <<< 8))

/-- R110, R112, R113, R114: BootROM starts at 0, takes the bytes of CIN in order by the printed table, and has no
finalization step. R120: it is the checksum under MODE = 0, and FDL under MODE = 1. -/
def Obligations.BootRomRunsTheRegister : Prop :=
  (∀ (m : Mode) (t s : Half) (d : List Byte), (m.bit = 0#1 → checksum m t s d = bootRom t s d) ∧
    (m.bit = 1#1 → checksum m t s d = fdl t s d)) ∧
  crc [] = 0#16 ∧ (∀ q b, crc (q ++ [b]) = crcUpdate (crc q) b) ∧
  (∀ r b, ∃ e, crcPrinted[(r.toNat >>> 8) ^^^ b.toNat]? = some e ∧
    (crcUpdate r b).toNat = ((r.toNat <<< 8) &&& 0xFFFF) ^^^ e.toNat) ∧
  (∀ (t s : Half) (d : List Byte), bootRom t s d =
    crc ([t.extractLsb' 8 8, t.extractLsb' 0 8, s.extractLsb' 8 8, s.extractLsb' 0 8] ++ d))

/-- R116 to R119: FDL in closed form: the 32-bit sum is exact (it never wraps), two folds bring it below 65536, and the
result is the 16-bit complement, which is zero only for a folded sum of 0xFFFF. -/
def Obligations.FdlHasTheClosedForm : Prop :=
  ∀ (t s : Half) (d : List Byte), d.length ≤ 65535 →
    (fdlSum t s d).toNat = t.toNat + s.toNat + wordSum d ∧
    t.toNat + s.toNat + wordSum d ≤ 2147516670 ∧
    foldNat (foldNat (t.toNat + s.toNat + wordSum d)) ≤ 0xFFFF ∧
    (fdl t s d).toNat = 0xFFFF - foldNat (foldNat (t.toNat + s.toNat + wordSum d))

/-- R121: CSUM computes the checksum of the frame registers under the active mode, sets STATUS to OK, and faults if one of
its operands is unwritten. -/
def Obligations.CsumComputesTheChecksum : Prop :=
  ∀ s : State,
    encode .csum = .command 0x20000000#32 ∧
    (∀ f, s.frame? = some f → ∃ t, exec .csum s = .next t ∧
      t.fCsum = .written (checksum s.mode f.type f.size f.data) ∧ t.status = 0#4 ∧ KeepsAllBut [.fCsum, .status] s t) ∧
    (s.frame? = none → exec .csum s = .fault .unwrittenRead)

/-! ### The frame registers (10_state.md) -/

/-- R25, R26, R31: the frame is F_TYPE, F_SIZE and F_DATA[0..F_SIZE), nothing above it; it has a value exactly when all of
these are written. -/
def Obligations.FrameIsReadFromItsRegisters : Prop :=
  ∀ s : State,
    (∀ t z d, s.frame? = some ⟨t, z, d⟩ ↔
      s.fType = .written t ∧ s.fSize = .written z ∧ d.length = z.toNat ∧ Holds s.fData 0 d) ∧
    (s.frame? = none ↔ s.fType = .unwritten ∨ s.fSize = .unwritten ∨
      ∃ z, s.fSize = .written z ∧ ∃ k < z.toNat, s.fData.read k = none)

/-- R28: F_CSUM is no part of a frame's identity, and neither are bytes of F_DATA at or above F_SIZE. -/
def Obligations.FrameIdentityIsTypeSizeData : Prop :=
  ∀ s t : State, t.fType = s.fType → t.fSize = s.fSize →
    (∀ z, s.fSize = .written z → ∀ k < z.toNat, t.fData.read k = s.fData.read k) → t.frame? = s.frame?

/-! ### The byte-stuffer (42_stuffing.md) -/

/-- R140: Escape of every byte. -/
def Obligations.EscapeOfEveryByte : Prop :=
  ∀ b : Byte, (b = 0x7D#8 ∨ b = 0x7E#8 → escape b = [0x7D#8, b ^^^ 0x20#8]) ∧
    (b ≠ 0x7D#8 → b ≠ 0x7E#8 → escape b = [b])

/-- R143, R144, R146: ReadField: it reads a literal (a raw 0x7E too), an escape pair with any second byte, runs out of
data before a read at or beyond the length, and faults on an unwritten byte below it. The bounds checks and the error that
running out reports in each phase are the spec's own choice (R143: "The bounds check and its error mapping are the spec's
decision", R146: "The mapping is the spec's choice", D8). -/
def Obligations.ReadFieldReadsEverySpelling : Prop :=
  ∀ (ph : Phase) (w : Memory) (len pos : Nat),
    (len ≤ pos → readField ph w len pos = .error (.error (outOfData ph))) ∧
    (pos < len → w.read pos = none → readField ph w len pos = .error .unwritten) ∧
    (∀ x, pos < len → w.read pos = some x → x ≠ 0x7D#8 → readField ph w len pos = .ok (x, pos + 1)) ∧
    (pos < len → w.read pos = some 0x7D#8 →
      (len ≤ pos + 1 → readField ph w len pos = .error (.error (outOfData ph))) ∧
      (pos + 1 < len → w.read (pos + 1) = none → readField ph w len pos = .error .unwritten) ∧
      (∀ y, pos + 1 < len → w.read (pos + 1) = some y → readField ph w len pos = .ok (y ^^^ 0x20#8, pos + 2))) ∧
    (outOfData ph = if ph = .data then .dataUnderflow else .framingError)

/-- R145: stuffing inverts exactly. -/
def Obligations.StuffingInvertsExactly : Prop :=
  ∀ (ph : Phase) (w : Memory) (len pos : Nat) (p : List Byte),
    Holds w pos (escapeSeq p) → pos + (escapeSeq p).length ≤ len →
    readFields ph w len p.length pos = .ok (p, pos + (escapeSeq p).length)

/-! ### The wire frame and ENCODE (30_encoding.md, 43_encode.md) -/

/-- R142, R162(b): in a canonical frame the raw byte 0x7E stands at both ends and nowhere else. -/
def Obligations.DelimitersStandOnlyAtTheEnds : Prop :=
  ∀ (f : Frame) (c : Half), 2 ≤ (wireBytes f c).length ∧
    ∀ k < (wireBytes f c).length,
      ((wireBytes f c)[k]? = some 0x7E#8 ↔ k = 0 ∨ k = (wireBytes f c).length - 1)

/-- R72, R73, R162(a): the canonical length is 8 + n + e, between 8 + n and 14 + 2n; it is 8 exactly for an empty frame
with nothing to escape. -/
def Obligations.CanonicalLengthCountsEscapes : Prop :=
  ∀ (f : Frame) (c : Half), f.data.length = f.size.toNat →
    (wireBytes f c).length = 8 + f.size.toNat + escapes (fieldBytes f c) ∧
    8 + f.size.toNat ≤ (wireBytes f c).length ∧ (wireBytes f c).length ≤ 14 + 2 * f.size.toNat ∧
    ((wireBytes f c).length = 8 ↔ f.size = 0#16 ∧ escapes (fieldBytes f c) = 0)

/-- R103: under the two modes the wire bytes are the same up to the checksum, then the escaped checksum and the trailing
delimiter. -/
def Obligations.ModesDifferOnlyInTheChecksum : Prop :=
  ∀ (c : Config) (f : Frame) (o1 o2 : List Byte) (c1 c2 : Half),
    encodeFrame c .bootRom f = .ok (o1, c1) → encodeFrame c .fdl f = .ok (o2, c2) →
    ∃ p, p = [0x7E#8] ++ escapeSeq (bytesOf f.type ++ bytesOf f.size ++ f.data) ∧
      o1 = p ++ escapeSeq (bytesOf c1) ++ [0x7E#8] ∧ o2 = p ++ escapeSeq (bytesOf c2) ++ [0x7E#8]

/-- R160, R163: a successful ENCODE writes the canonical bytes at W_BUF[0..L), W_LEN, F_CSUM and STATUS, and nothing
else. -/
def Obligations.EncodeWritesTheFrame : Prop :=
  ∀ (s : State) (f : Frame) (c : Half) (out : List Byte), s.config.Ok → s.frame? = some f →
    2 * (8 + f.size.toNat) ≤ s.config.wireCap → c = checksum s.mode f.type f.size f.data →
    out = [0x7E#8] ++ escapeSeq (bytesOf f.type ++ bytesOf f.size ++ f.data ++ bytesOf c) ++ [0x7E#8] →
    ∃ t v, exec .encode s = .next t ∧ Holds t.wBuf 0 out ∧ SameOutside s.wBuf t.wBuf 0 out.length ∧
      t.wLen = .written v ∧ v.toNat = out.length ∧ t.fCsum = .written c ∧ t.status = 0#4 ∧
      KeepsAllBut [.wBuf, .wLen, .fCsum, .status] s t

/-- R161, R164: AllocationFailure exactly when the doubled bound exceeds WIRE_CAP, never from the recommended capacity up;
it writes STATUS and nothing else. An unwritten operand faults before the check (R163, R245). -/
def Obligations.EncodeFailsOnlyForCapacity : Prop :=
  ∀ s : State,
    (∀ f, s.frame? = some f →
      (s.config.wireCap < 2 * (8 + f.size.toNat) →
        ∃ t, exec .encode s = .next t ∧ t.status = 5#4 ∧ KeepsAllBut [.status] s t) ∧
      (2 * (8 + f.size.toNat) ≤ s.config.wireCap ∨ 131086 ≤ s.config.wireCap →
        ∃ t, exec .encode s = .next t ∧ t.status = 0#4)) ∧
    (s.frame? = none → exec .encode s = .fault .unwrittenRead)

/-! ### DECODE (44_decode.md) -/

/-- R181: with W_LEN below 8, DECODE reports TooShort, whatever W_BUF holds. -/
def Obligations.ShortBuffersAreTooShort : Prop :=
  ∀ (s : State) (l : Wide), s.wLen = .written l → l.toNat < 8 →
    ∃ t, exec .decode s = .next t ∧ t.status = 1#4 ∧ KeepsAllBut [.status] s t

/-- R194: the first failing check, in the order of the rule, decides the error: TooShort, FramingError for the leading
byte, FramingError for running out in the header, DataUnderflow from the size check, DataUnderflow for running out in the
data, FramingError for running out in the checksum, ChecksumMismatch, FramingError for the trailing delimiter. An unwritten
byte that is read stops the function wherever it is met (R31). Which error running out reports is the spec's own choice
(R146: "The mapping is the spec's choice", D8). -/
def Obligations.FirstFailingCheckIsReported : Prop :=
  ∀ (m : Mode) (w : Memory) (len : Nat),
    (len < 8 → decodeFrame m w len = .error (.error .tooShort)) ∧
    (8 ≤ len → w.read 0 = none → decodeFrame m w len = .error .unwritten) ∧
    (8 ≤ len → ∀ x, w.read 0 = some x →
      (x ≠ 0x7E#8 → decodeFrame m w len = .error (.error .framingError)) ∧
      (x = 0x7E#8 →
        (∀ e, readFields .hdr w len 4 1 = .error e →
          decodeFrame m w len = .error e ∧ (e = .error .framingError ∨ e = .unwritten)) ∧
        ∀ a b c d p, readFields .hdr w len 4 1 = .ok ([a, b, c, d], p) →
          (len - 8 < (be16 c d).toNat → decodeFrame m w len = .error (.error .dataUnderflow)) ∧
          ((be16 c d).toNat ≤ len - 8 →
            (∀ e, readFields .data w len (be16 c d).toNat p = .error e →
              decodeFrame m w len = .error e ∧ (e = .error .dataUnderflow ∨ e = .unwritten)) ∧
            ∀ q p', readFields .data w len (be16 c d).toNat p = .ok (q, p') →
              (∀ e, readFields .csum w len 2 p' = .error e →
                decodeFrame m w len = .error e ∧ (e = .error .framingError ∨ e = .unwritten)) ∧
              ∀ h l p'', readFields .csum w len 2 p' = .ok ([h, l], p'') →
                (be16 h l ≠ checksum m (be16 a b) (be16 c d) q →
                  decodeFrame m w len = .error (.error .checksumMismatch)) ∧
                (be16 h l = checksum m (be16 a b) (be16 c d) q →
                  (len ≤ p'' → decodeFrame m w len = .error (.error .framingError)) ∧
                  (p'' < len → w.read p'' = none → decodeFrame m w len = .error .unwritten) ∧
                  (p'' < len → ∀ y, w.read p'' = some y →
                    (y ≠ 0x7E#8 → decodeFrame m w len = .error (.error .framingError)) ∧
                    (y = 0x7E#8 → decodeFrame m w len =
                      .ok ⟨⟨be16 a b, be16 c d, q⟩, be16 h l, p'' + 1⟩))))))

/-- R186, R188, R189: what DECODE accepts is a frame whose checksum matches, whose size is its data's length and fits the
buffer, and which ends in a delimiter within W_LEN. -/
def Obligations.AcceptedFramesAreValid : Prop :=
  ∀ (m : Mode) (w : Memory) (len : Nat) (r : Decoded), decodeFrame m w len = .ok r →
    r.csum = checksum m r.frame.type r.frame.size r.frame.data ∧ r.frame.data.length = r.frame.size.toNat ∧
    r.frame.size.toNat + 8 ≤ r.used ∧ r.used ≤ len ∧ w.read 0 = some 0x7E#8 ∧ w.read (r.used - 1) = some 0x7E#8

/-- R191: a successful DECODE commits type, size, data and checksum, and changes nothing else; bytes of F_DATA at and
above the size keep what they hold. -/
def Obligations.DecodeCommitsTheFrame : Prop :=
  ∀ (s : State) (l : Wide) (r : Decoded), s.wLen = .written l → decodeFrame s.mode s.wBuf l.toNat = .ok r →
    ∃ t, exec .decode s = .next t ∧ t.fType = .written r.frame.type ∧ t.fSize = .written r.frame.size ∧
      Holds t.fData 0 r.frame.data ∧ SameOutside s.fData t.fData 0 r.frame.size.toNat ∧
      t.fCsum = .written r.csum ∧ t.status = 0#4 ∧ KeepsAllBut [.fType, .fSize, .fData, .fCsum, .status] s t

/-- R191, R272(3): DECODE completes whenever W_LEN and the bytes below it are written. R31, R191: it faults with W_LEN
unwritten, with W_BUF[0] unwritten (but for a length below 8), wherever DecodeFrame meets an unwritten byte, and so for
every frame it would accept, of which any bytes up to the trailing delimiter are unwritten and the others stand in W_BUF. -/
def Obligations.DecodeCompletesOnAWrittenBuffer : Prop :=
  ∀ s : State,
    (∀ l, s.wLen = .written l → (∀ k < l.toNat, s.wBuf.read k ≠ none) →
      ∃ t, exec .decode s = .next t ∧ t.status.toNat ≤ 4) ∧
    (s.wLen = .unwritten → exec .decode s = .fault .unwrittenRead) ∧
    (∀ l, s.wLen = .written l →
      (8 ≤ l.toNat → s.wBuf.read 0 = none → exec .decode s = .fault .unwrittenRead) ∧
      (decodeFrame s.mode s.wBuf l.toNat = .error .unwritten ↔ exec .decode s = .fault .unwrittenRead) ∧
      (∀ w r k, decodeFrame s.mode w l.toNat = .ok r →
        (∀ j < r.used, s.wBuf.read j = none ∨ s.wBuf.read j = w.read j) → k < r.used → s.wBuf.read k = none →
        exec .decode s = .fault .unwrittenRead))

/-- R192: a DECODE that ends in an error writes STATUS and nothing else. -/
def Obligations.FailedDecodeWritesOnlyStatus : Prop :=
  ∀ s t : State, exec .decode s = .next t → t.status ≠ 0#4 → KeepsAllBut [.status] s t

/-- R196: DECODE depends on no byte at or beyond W_LEN: buffers that agree below it give the same result. -/
def Obligations.DecodeReadsBelowTheLength : Prop :=
  ∀ (m : Mode) (w w' : Memory) (len : Nat), (∀ k < len, w'.read k = w.read k) →
    decodeFrame m w' len = decodeFrame m w len

/-- Nothing after the trailing delimiter matters, neither bytes nor a larger length. This is the spec's own choice, no
statement of the source (R190: "ignoring the extra bytes is the spec's reading of that silence"; D9 advises against relying
on it). -/
def Obligations.TrailingBytesAreIgnored : Prop :=
  ∀ (m : Mode) (w w' : Memory) (len len' : Nat) (r : Decoded), decodeFrame m w len = .ok r →
    (∀ k < r.used, w'.read k = w.read k) → r.used ≤ len' → decodeFrame m w' len' = .ok r

/-- R195: decoding a canonical frame gives the frame back, under both modes. -/
def Obligations.DecodeInvertsEncodeFrame : Prop :=
  ∀ (c : Config) (m : Mode) (f : Frame) (out : List Byte) (ck : Half) (w : Memory),
    f.data.length = f.size.toNat → encodeFrame c m f = .ok (out, ck) → Holds w 0 out →
    decodeFrame m w out.length = .ok ⟨f, ck, out.length⟩

/-- R195, R163, R191: ENCODE and then DECODE leaves the same frame in the frame registers, and changes nothing else. -/
def Obligations.EncodeThenDecodeKeepsTheFrame : Prop :=
  ∀ (s t : State) (f : Frame), s.config.Ok → s.frame? = some f → exec .encode s = .next t → t.status = 0#4 →
    ∃ u, exec .decode t = .next u ∧ u.frame? = some f ∧ u.status = 0#4 ∧ KeepsAllBut [] t u

/-- R197: flip one bit of one wire byte in the data region of a canonical frame, neither byte being 0x7D: the decoded data
differs in exactly that one bit of one byte, and DECODE under the same mode reports ChecksumMismatch. -/
def Obligations.SingleBitFlipsAreCaught : Prop :=
  ∀ (m : Mode) (f : Frame) (w : Memory) (k j : Nat) (y : Byte) (start : Nat),
    f.data.length = f.size.toNat →
    start = 1 + (escapeSeq (bytesOf f.type)).length + (escapeSeq (bytesOf f.size)).length →
    start ≤ k → k < start + (escapeSeq f.data).length → j < 8 →
    (wireBytes f (f.checksum m))[k]? = some y → y ≠ 0x7D#8 → y ^^^ (1#8 <<< j) ≠ 0x7D#8 →
    Holds w 0 ((wireBytes f (f.checksum m)).set k (y ^^^ (1#8 <<< j))) →
    decodeFrame m w (wireBytes f (f.checksum m)).length = .error (.error .checksumMismatch) ∧
    ∃ n b, f.data[n]? = some b ∧
      readFields .data w (wireBytes f (f.checksum m)).length f.size.toNat start =
        .ok (f.data.set n (b ^^^ (1#8 <<< j)), start + (escapeSeq f.data).length)

/-! ### Host access (45_host_access.md) -/

/-- R210, R211: WRTYPE and WRSIZE write their register and nothing else, whatever the value. -/
def Obligations.FrameRegistersAreWritten : Prop :=
  ∀ (v : Half) (s : State),
    encode (.wrtype v) = .command (0x50000000#32 ||| v.setWidth 32) ∧
    encode (.wrsize v) = .command (0x60000000#32 ||| v.setWidth 32) ∧
    (∃ t, exec (.wrtype v) s = .next t ∧ t.fType = .written v ∧ KeepsAllBut [.fType] s t) ∧
    (∃ t, exec (.wrsize v) s = .next t ∧ t.fSize = .written v ∧ KeepsAllBut [.fSize] s t)

/-- R212: WRDATA stores one byte of F_DATA; index 65535 alone is refused. -/
def Obligations.WrdataStoresOneByte : Prop :=
  ∀ (i : Half) (b : Byte) (s : State),
    encode (.wrdata i b) = .command (0x70000000#32 ||| (i.setWidth 32 <<< 8) ||| b.setWidth 32) ∧
    (i.toNat < 65535 → ∃ t, exec (.wrdata i b) s = .next t ∧ t.fData.read i.toNat = some b ∧
      SameOutside s.fData t.fData i.toNat 1 ∧ KeepsAllBut [.fData] s t) ∧
    (i.toNat = 65535 → exec (.wrdata i b) s = .refused .addressOutOfRange)

/-- R213: WRWLEN writes W_LEN; a length above WIRE_CAP is refused. -/
def Obligations.WrwlenWritesTheLength : Prop :=
  ∀ (v : Wide) (s : State),
    encode (.wrwlen v) = .command (0x80000000#32 ||| v.setWidth 32) ∧
    (v.toNat ≤ s.config.wireCap → ∃ t, exec (.wrwlen v) s = .next t ∧ t.wLen = .written v ∧ KeepsAllBut [.wLen] s t) ∧
    (s.config.wireCap < v.toNat → exec (.wrwlen v) s = .refused .addressOutOfRange)

/-- R214: WRWBUF stores one byte of W_BUF; an index at or beyond WIRE_CAP is refused. -/
def Obligations.WrwbufStoresOneByte : Prop :=
  ∀ (i : Wide) (b : Byte) (s : State),
    encode (.wrwbuf i b) = .command (0x90000000#32 ||| (i.setWidth 32 <<< 8) ||| b.setWidth 32) ∧
    (i.toNat < s.config.wireCap → ∃ t, exec (.wrwbuf i b) s = .next t ∧ t.wBuf.read i.toNat = some b ∧
      SameOutside s.wBuf t.wBuf i.toNat 1 ∧ KeepsAllBut [.wBuf] s t) ∧
    (s.config.wireCap ≤ i.toNat → exec (.wrwbuf i b) s = .refused .addressOutOfRange)

/-- R215, R216: RDREG returns the selected register, zero-extended, and changes nothing; an unwritten register faults, and
selectors 6 to 15 are refused. -/
def Obligations.RdregReadsTheRegister : Prop :=
  ∀ (sel : BitVec 4) (s : State),
    encode (.rdreg sel) = .command (0xA0000000#32 ||| sel.setWidth 32) ∧
    (sel = 0#4 → ∃ t, exec (.rdreg sel) s = .next t ∧ t.responses = s.responses ++ [s.status.setWidth 32] ∧
      KeepsAllBut [.responses] s t) ∧
    (sel = 1#4 → ∃ t, exec (.rdreg sel) s = .next t ∧ t.responses = s.responses ++ [s.mode.bit.setWidth 32] ∧
      KeepsAllBut [.responses] s t) ∧
    (∀ v : BitVec 16, (sel = 2#4 ∧ s.fType = .written v) ∨ (sel = 3#4 ∧ s.fSize = .written v) ∨
        (sel = 4#4 ∧ s.fCsum = .written v) →
      ∃ t, exec (.rdreg sel) s = .next t ∧ t.responses = s.responses ++ [v.setWidth 32] ∧
        KeepsAllBut [.responses] s t) ∧
    (∀ v : BitVec 18, sel = 5#4 → s.wLen = .written v →
      ∃ t, exec (.rdreg sel) s = .next t ∧ t.responses = s.responses ++ [v.setWidth 32] ∧
        KeepsAllBut [.responses] s t) ∧
    ((sel = 2#4 ∧ s.fType = .unwritten) ∨ (sel = 3#4 ∧ s.fSize = .unwritten) ∨ (sel = 4#4 ∧ s.fCsum = .unwritten) ∨
        (sel = 5#4 ∧ s.wLen = .unwritten) → exec (.rdreg sel) s = .fault .unwrittenRead) ∧
    (5 < sel.toNat → exec (.rdreg sel) s = .refused .reservedEncoding)

/-- R217: RDDATA returns one byte of F_DATA and changes nothing; an unwritten byte faults, index 65535 is refused. -/
def Obligations.RddataReadsOneByte : Prop :=
  ∀ (i : Half) (s : State),
    encode (.rddata i) = .command (0xB0000000#32 ||| (i.setWidth 32 <<< 8)) ∧
    (∀ b, i.toNat < 65535 → s.fData.read i.toNat = some b → ∃ t, exec (.rddata i) s = .next t ∧
      t.responses = s.responses ++ [b.setWidth 32] ∧ KeepsAllBut [.responses] s t) ∧
    (i.toNat < 65535 → s.fData.read i.toNat = none → exec (.rddata i) s = .fault .unwrittenRead) ∧
    (i.toNat = 65535 → exec (.rddata i) s = .refused .addressOutOfRange)

/-- R218: RDWBUF returns one byte of W_BUF and changes nothing; an unwritten byte faults, an index at or beyond WIRE_CAP is
refused. -/
def Obligations.RdwbufReadsOneByte : Prop :=
  ∀ (i : Wide) (s : State),
    encode (.rdwbuf i) = .command (0xC0000000#32 ||| (i.setWidth 32 <<< 8)) ∧
    (∀ b, i.toNat < s.config.wireCap → s.wBuf.read i.toNat = some b → ∃ t, exec (.rdwbuf i) s = .next t ∧
      t.responses = s.responses ++ [b.setWidth 32] ∧ KeepsAllBut [.responses] s t) ∧
    (i.toNat < s.config.wireCap → s.wBuf.read i.toNat = none → exec (.rdwbuf i) s = .fault .unwrittenRead) ∧
    (s.config.wireCap ≤ i.toNat → exec (.rdwbuf i) s = .refused .addressOutOfRange)

/-- R84: LOADFRAME leaves the frame it names in the frame registers; bytes of F_DATA above it, and everything else, are
kept. -/
def Obligations.LoadFrameLoadsTheFrame : Prop :=
  ∀ (t : Half) (bs : List Byte) (s : State), bs.length ≤ 65535 →
    ∃ u, execAll (loadFrame t bs) s = .next u ∧ u.frame? = some ⟨t, BitVec.ofNat 16 bs.length, bs⟩ ∧
      SameOutside s.fData u.fData 0 bs.length ∧ KeepsAllBut [.fType, .fSize, .fData] s u

/-- R84: LOADWIRE leaves its bytes at W_BUF[0..L) and L in W_LEN; everything else is kept. -/
def Obligations.LoadWireLoadsTheBuffer : Prop :=
  ∀ (ws : List Byte) (s : State), ws.length ≤ s.config.wireCap → s.config.Ok →
    ∃ u v, execAll (loadWire ws) s = .next u ∧ Holds u.wBuf 0 ws ∧ SameOutside s.wBuf u.wBuf 0 ws.length ∧
      u.wLen = .written v ∧ v.toNat = ws.length ∧ KeepsAllBut [.wBuf, .wLen] s u

/-! ### The wire items and type labels, as sub-steps of a codec command (log 6) -/

/-- R76, R143, R144 (sub-steps, the model's choice: log 6): a DECODE in progress takes the raw byte x. At the leading
position it must be 0x7E (R182). In the field region an escape prefix waits for the next raw byte, and a field byte y is
complete with a literal or with the second byte of a pair, whatever that byte is. After the fourth field byte the size is
checked (R184), after the last the checksum (R188); then the frame goes on if the cursor is below the length, and else ends
by phase (R146, the spec's own choice, D8; log 9). At the trailing position 0x7E completes the command (R191), and any other byte ends it (R189). -/
def Obligations.DecodeTakesRawBytes : Prop :=
  ∀ (s : State) (d : Decoder) (i : Instr) (x : Byte), s.work = .decoding d → 8 ≤ d.len → i.rawByte? = some x →
    (d.pos = 0 →
      (x = 0x7E#8 → GoesOn (exec i s) s (.decoding { d with pos := 1 })) ∧
      (x ≠ 0x7E#8 → EndsWith (exec i s) s 2#4)) ∧
    (0 < d.pos → d.bytes.length < 4 ∨ d.bytes.length < 6 + d.size.toNat →
      (d.escaped = false → x = 0x7D#8 →
        (d.pos + 1 < d.len → GoesOn (exec i s) s (.decoding { d with pos := d.pos + 1, escaped := true })) ∧
        (d.len ≤ d.pos + 1 → EndsWith (exec i s) s
          (if 4 ≤ d.bytes.length ∧ d.bytes.length < 4 + d.size.toNat then 3#4 else 2#4))) ∧
      ∀ y q z, (d.escaped = false ∧ x ≠ 0x7D#8 ∧ y = x) ∨ (d.escaped = true ∧ y = x ^^^ 0x20#8) →
        q = d.bytes ++ [y] → z = be16 (q.getD 2 0#8) (q.getD 3 0#8) →
        (q.length = 4 → d.len - 8 < z.toNat → EndsWith (exec i s) s 3#4) ∧
        (∀ t p c, q = bytesOf t ++ bytesOf z ++ p ++ bytesOf c → p.length = z.toNat → c ≠ checksum d.mode t z p →
          EndsWith (exec i s) s 4#4) ∧
        ((q.length = 4 → z.toNat ≤ d.len - 8) →
          (∀ t p c, q = bytesOf t ++ bytesOf z ++ p ++ bytesOf c → p.length = z.toNat → c = checksum d.mode t z p) →
          (d.pos + 1 < d.len → GoesOn (exec i s) s (.decoding ⟨d.mode, d.len, d.pos + 1, false, q⟩)) ∧
          (d.len ≤ d.pos + 1 → EndsWith (exec i s) s
            (if 4 ≤ q.length ∧ q.length < 4 + z.toNat then 3#4 else 2#4)))) ∧
    (0 < d.pos → ∀ t z p c, d.bytes = bytesOf t ++ bytesOf z ++ p ++ bytesOf c → p.length = z.toNat →
      (x = 0x7E#8 → ∃ u, exec i s = .next u ∧ u.fType = .written t ∧ u.fSize = .written z ∧ Holds u.fData 0 p ∧
        SameOutside s.fData u.fData 0 z.toNat ∧ u.fCsum = .written c ∧ u.status = 0#4 ∧ u.work = .idle ∧
        KeepsAllBut [.fType, .fSize, .fData, .fCsum, .status, .work] s u) ∧
      (x ≠ 0x7E#8 → EndsWith (exec i s) s 2#4))

/-- R140, R142 (sub-steps, the model's choice: log 6): an ENCODE in progress sends the leading delimiter, then each field
byte as a literal or as an escape pair, then the trailing delimiter, which completes the command (R163). -/
def Obligations.EncodeSendsFieldBytes : Prop :=
  ∀ (s : State) (e : Encoder), s.work = .encoding e →
    (e.out = [] → GoesOn (exec .wireDelim s) s (.encoding { e with out := [0x7E#8] })) ∧
    (e.out ≠ [] → ∀ b q, e.todo = b :: q →
      (b ≠ 0x7D#8 → b ≠ 0x7E#8 → GoesOn (exec (.wireLit b) s) s (.encoding ⟨e.csum, q, e.out ++ [b]⟩)) ∧
      (b = 0x7D#8 ∨ b = 0x7E#8 →
        GoesOn (exec (.encEscape b) s) s (.encoding ⟨e.csum, q, e.out ++ [0x7D#8, b ^^^ 0x20#8]⟩))) ∧
    (e.out ≠ [] → e.todo = [] → e.out.length < s.config.wireCap → s.config.Ok →
      ∃ t v, exec .wireDelim s = .next t ∧ Holds t.wBuf 0 (e.out ++ [0x7E#8]) ∧
        SameOutside s.wBuf t.wBuf 0 (e.out.length + 1) ∧ t.wLen = .written v ∧ v.toNat = e.out.length + 1 ∧
        t.fCsum = .written e.csum ∧ t.status = 0#4 ∧ t.work = .idle ∧
        KeepsAllBut [.wBuf, .wLen, .fCsum, .status, .work] s t)

/-- R74, R75, R160, R183 (sub-steps, the model's choice: log 6): each of the eighteen labels is the type field with the
code R74 gives it: an ENCODE in progress sends its two bytes, high byte first, and a DECODE in progress takes them. -/
def Obligations.TypeLabelsAreTheTypeField : Prop :=
  ∀ (l : FrameType) (v : Half) (s : State),
    v = (match l with
      | .connect => 0x0000#16 | .startDataTransfer => 0x0001#16 | .dataTransfer => 0x0002#16
      | .endDataTransfer => 0x0003#16 | .executeData => 0x0004#16 | .reset => 0x0005#16 | .readFlash => 0x0006#16
      | .eraseFlash => 0x000A#16 | .readFlashType => 0x000C#16 | .readFlashInfo => 0x000D#16
      | .enableFlash => 0x001B#16 | .acknowledgement => 0x0080#16 | .banner => 0x0081#16
      | .destinationError => 0x0089#16 | .sizeError => 0x008A#16 | .verificationError => 0x008B#16
      | .readFlashResponse => 0x0093#16 | .verificationFailure => 0x00A6#16) →
    encode l.instr = .frameType v ∧
    (∀ c q, s.work = .encoding ⟨c, bytesOf v ++ q, [0x7E#8]⟩ →
      GoesOn (exec l.instr s) s (.encoding ⟨c, q, [0x7E#8] ++ bytesOf v⟩)) ∧
    (∀ m len, 8 ≤ len → s.work = .decoding ⟨m, len, 1, false, []⟩ →
      GoesOn (exec l.instr s) s (.decoding ⟨m, len, 3, false, bytesOf v⟩))

/-- Model's choice (log 7): a wire item or a type label has no place while no codec command is in progress. -/
def Obligations.ItemsNeedACommandInProgress : Prop :=
  ∀ (s : State) (b : Byte) (l : FrameType), s.work = .idle →
    exec .wireDelim s = .refused .noCommandInProgress ∧ exec .wireEsc s = .refused .noCommandInProgress ∧
    exec (.wireLit b) s = .refused .noCommandInProgress ∧ exec (.encEscape b) s = .refused .noCommandInProgress ∧
    exec l.instr s = .refused .noCommandInProgress

/-- The sub-steps are the model's choice (log 6). Taking the raw bytes one by one reaches what the atomic DECODE of R191
reaches, in every state, whether it succeeds, reports an error or faults. -/
def Obligations.DecodeByItemsIsDecode : Prop :=
  ∀ (s t : State) (l : Wide), s.Ready → s.wLen = .written l → s.beginDecode = .next t →
    runWork l.toNat t = exec .decode s

/-- The sub-steps are the model's choice (log 6). Sending the field bytes one by one reaches what the atomic ENCODE of R163
reaches. -/
def Obligations.EncodeByItemsIsEncode : Prop :=
  ∀ (s t : State) (f : Frame), s.Ready → s.frame? = some f → s.beginEncode = .next t →
    runWork (f.size.toNat + 8) t = exec .encode s

/-! ### Running out of data (42_stuffing.md) -/

/-- R146, for any number of field bytes: a read that stops ran out of data, which is DataUnderflow in the data and
FramingError in the header and the checksum (the spec's own choice: "The mapping is the spec's choice", D8), or it met an
unwritten byte below the length. With all bytes written it runs out when fewer raw bytes are left than field bytes asked
for. It stops with the error of the first ReadField that stops, and no byte at or beyond the length matters. -/
def Obligations.FieldsRunOutByPhase : Prop :=
  ∀ (ph : Phase) (w : Memory) (len n pos : Nat) (out : CodecError),
    out = (if ph = .data then .dataUnderflow else .framingError) →
    (∀ e, readFields ph w len n pos = .error e →
      e = .error out ∨ (e = .unwritten ∧ ∃ k, pos ≤ k ∧ k < len ∧ w.read k = none)) ∧
    ((∀ k, pos ≤ k → k < len → w.read k ≠ none) → 0 < n → len < pos + n →
      readFields ph w len n pos = .error (.error out)) ∧
    (∀ a q p e, a < n → readFields ph w len a pos = .ok (q, p) → readField ph w len p = .error e →
      readFields ph w len n pos = .error e) ∧
    (∀ w' : Memory, (∀ k < len, w'.read k = w.read k) → readFields ph w' len n pos = readFields ph w len n pos)
end

