-- ==== Sys2Proof/Laws/Memory.lean ====
section
/-! SUPPORT. The laws of the byte spaces: a read after a write to the same place gives the value written, a write leaves
every other place alone, and every operation keeps the canonical form and the bounds of the space. -/

namespace Sys2Proof.Machine

/-! ### One byte -/

theorem Memory.read_write_same (m : Memory) (k : Nat) (v : Byte) : (Memory.write m k v).read k = some v := by
  induction m with
  | nil => simp [Memory.write, Memory.read]
  | cons c rest ih =>
    obtain ⟨a, b⟩ := c
    simp only [Memory.write]
    split
    · simp [Memory.read]
    · split
      · simp [Memory.read]
      · rename_i h
        simp only [Memory.read, if_neg h]
        exact ih

theorem Memory.read_write_other (m : Memory) {k j : Nat} (v : Byte) (h : j ≠ k) :
    (Memory.write m k v).read j = Memory.read m j := by
  induction m with
  | nil => simp [Memory.write, Memory.read, h]
  | cons c rest ih =>
    obtain ⟨a, b⟩ := c
    simp only [Memory.write]
    split
    · simp [Memory.read, h]
    · split
      · rename_i hk
        subst hk
        simp [Memory.read, h]
      · simp only [Memory.read]
        split
        · rfl
        · exact ih

theorem Memory.mem_write {m : Memory} {k : Nat} {v : Byte} {c : Host.Cell} (h : c ∈ Memory.write m k v) :
    c = (k, v) ∨ c ∈ m := by
  induction m with
  | nil => simpa [Memory.write] using h
  | cons d rest ih =>
    obtain ⟨a, b⟩ := d
    simp only [Memory.write] at h
    split at h
    · rcases List.mem_cons.1 h with h | h
      · exact .inl h
      · exact .inr h
    · split at h
      · rcases List.mem_cons.1 h with h | h
        · exact .inl h
        · exact .inr (List.mem_cons_of_mem _ h)
      · rcases List.mem_cons.1 h with h | h
        · exact .inr (h ▸ List.mem_cons_self)
        · rcases ih h with h | h
          · exact .inl h
          · exact .inr (List.mem_cons_of_mem _ h)

/-- A write keeps the canonical form. -/
theorem Memory.write_wf {m : Memory} (h : m.wf) (k : Nat) (v : Byte) : (Memory.write m k v).wf := by
  induction m with
  | nil => simp [Memory.write, Memory.wf]
  | cons d rest ih =>
    obtain ⟨a, b⟩ := d
    obtain ⟨hlt, hrest⟩ := List.pairwise_cons.1 h
    simp only [Memory.write]
    split
    · rename_i hk
      refine List.pairwise_cons.2 ⟨fun c hc => ?_, h⟩
      rcases List.mem_cons.1 hc with rfl | hc
      · exact hk
      · exact Nat.lt_trans hk (hlt c hc)
    · split
      · rename_i hk
        subst hk
        exact List.pairwise_cons.2 ⟨hlt, hrest⟩
      · rename_i h1 h2
        refine List.pairwise_cons.2 ⟨fun c hc => ?_, ih hrest⟩
        rcases Memory.mem_write hc with rfl | hc
        · show a < k
          omega
        · exact hlt c hc

/-- A write below n keeps the space within n bytes. -/
theorem Memory.write_below {m : Memory} {n k : Nat} (h : Memory.Below n m) (hk : k < n) (v : Byte) :
    Memory.Below n (Memory.write m k v) := by
  intro c hc
  rcases Memory.mem_write hc with rfl | hc
  · exact hk
  · exact h c hc

/-! ### A run of bytes -/

theorem Memory.writeFrom_wf (bs : List Byte) : ∀ {m : Memory} (k : Nat), m.wf → (Memory.writeFrom m k bs).wf := by
  induction bs with
  | nil => intro m k h; exact h
  | cons b bs ih => intro m k h; exact ih (k + 1) (Memory.write_wf h k b)

theorem Memory.writeFrom_below {n : Nat} (bs : List Byte) :
    ∀ {m : Memory} (k : Nat), Memory.Below n m → k + bs.length ≤ n → Memory.Below n (Memory.writeFrom m k bs) := by
  induction bs with
  | nil => intro m k h _; exact h
  | cons b bs ih =>
    intro m k h hk
    simp only [List.length_cons] at hk
    exact ih (k + 1) (Memory.write_below h (by omega) b) (by omega)

theorem Memory.read_writeFrom_outside (bs : List Byte) :
    ∀ (m : Memory) (k a : Nat), a < k ∨ k + bs.length ≤ a → (Memory.writeFrom m k bs).read a = Memory.read m a := by
  induction bs with
  | nil => intro m k a _; rfl
  | cons b bs ih =>
    intro m k a h
    simp only [List.length_cons] at h
    simp only [Memory.writeFrom]
    rw [ih _ _ _ (by omega), Memory.read_write_other _ _ (by omega)]

theorem Memory.read_writeFrom_inside (bs : List Byte) :
    ∀ (m : Memory) (k j : Nat), j < bs.length → (Memory.writeFrom m k bs).read (k + j) = bs[j]? := by
  induction bs with
  | nil => intro m k j h; simp at h
  | cons b bs ih =>
    intro m k j h
    simp only [Memory.writeFrom]
    cases j with
    | zero =>
      show (Memory.writeFrom (Memory.write m k b) (k + 1) bs).read k = some b
      rw [Memory.read_writeFrom_outside _ _ _ _ (by omega), Memory.read_write_same]
    | succ j =>
      simp only [List.length_cons] at h
      rw [show k + (j + 1) = k + 1 + j by omega, ih _ _ _ (by omega)]
      rfl

theorem Memory.holds_writeFrom (m : Memory) (k : Nat) (bs : List Byte) : Holds (Memory.writeFrom m k bs) k bs :=
  fun j hj => Memory.read_writeFrom_inside bs m k j hj

theorem Memory.sameOutside_writeFrom (m : Memory) (k : Nat) (bs : List Byte) :
    SameOutside m (Memory.writeFrom m k bs) k bs.length :=
  fun a ha => Memory.read_writeFrom_outside bs m k a ha

/-- readFrom gives exactly the n bytes that stand there. -/
theorem Memory.readFrom_eq_some (m : Memory) :
    ∀ (n k : Nat) (bs : List Byte), Memory.readFrom m k n = some bs ↔ bs.length = n ∧ Holds m k bs := by
  intro n
  induction n with
  | zero =>
    intro k bs
    simp only [Memory.readFrom, Option.some.injEq]
    constructor
    · rintro rfl; exact ⟨rfl, fun j hj => by simp at hj⟩
    · rintro ⟨h, _⟩; exact (List.length_eq_zero_iff.1 h).symm
  | succ n ih =>
    intro k bs
    have step : ∀ b q, Memory.read m k = some b → Memory.readFrom m (k + 1) n = some q →
        Memory.readFrom m k (n + 1) = some (b :: q) := by
      intro b q h1 h2; simp [Memory.readFrom, h1, h2]
    constructor
    · intro h
      simp only [Memory.readFrom] at h
      split at h
      · rename_i b q h1 h2
        obtain rfl : b :: q = bs := by simpa using h
        obtain ⟨hl, hh⟩ := (ih _ _).1 h2
        refine ⟨by simp [hl], fun j hj => ?_⟩
        cases j with
        | zero => simpa using h1
        | succ j =>
          simp only [List.length_cons] at hj
          rw [show k + (j + 1) = k + 1 + j by omega, hh j (by omega)]
          rfl
      · cases h
    · rintro ⟨hl, hh⟩
      cases bs with
      | nil => simp at hl
      | cons b q =>
        simp only [List.length_cons, Nat.add_right_cancel_iff] at hl
        refine step b q (by simpa using hh 0 (by simp)) ((ih _ _).2 ⟨hl, fun j hj => ?_⟩)
        have := hh (j + 1) (by simpa using hj)
        rw [show k + (j + 1) = k + 1 + j by omega] at this
        simpa using this

end Sys2Proof.Machine
end

