-- ==== Sys2Proof/Laws/State.lean ====
section
/-! SUPPORT. One lemma a field a register write, so that no later proof unfolds a record update; and the fields after the
two commits of a codec command. -/

namespace Sys2Proof.Machine

variable (s : State)

@[simp] theorem State.setMode_config (m : Mode) : (s.setMode m).config = s.config := rfl
@[simp] theorem State.setMode_mode (m : Mode) : (s.setMode m).mode = m := rfl
@[simp] theorem State.setMode_status (m : Mode) : (s.setMode m).status = s.status := rfl
@[simp] theorem State.setMode_fType (m : Mode) : (s.setMode m).fType = s.fType := rfl
@[simp] theorem State.setMode_fSize (m : Mode) : (s.setMode m).fSize = s.fSize := rfl
@[simp] theorem State.setMode_fCsum (m : Mode) : (s.setMode m).fCsum = s.fCsum := rfl
@[simp] theorem State.setMode_wLen (m : Mode) : (s.setMode m).wLen = s.wLen := rfl
@[simp] theorem State.setMode_fData (m : Mode) : (s.setMode m).fData = s.fData := rfl
@[simp] theorem State.setMode_wBuf (m : Mode) : (s.setMode m).wBuf = s.wBuf := rfl
@[simp] theorem State.setMode_faultMark (m : Mode) : (s.setMode m).faultMark = s.faultMark := rfl
@[simp] theorem State.setMode_refusalMark (m : Mode) : (s.setMode m).refusalMark = s.refusalMark := rfl
@[simp] theorem State.setMode_work (m : Mode) : (s.setMode m).work = s.work := rfl
@[simp] theorem State.setMode_pending (m : Mode) : (s.setMode m).pending = s.pending := rfl
@[simp] theorem State.setMode_responses (m : Mode) : (s.setMode m).responses = s.responses := rfl

@[simp] theorem State.complete_config (c : BitVec 4) : (s.complete c).config = s.config := rfl
@[simp] theorem State.complete_mode (c : BitVec 4) : (s.complete c).mode = s.mode := rfl
@[simp] theorem State.complete_status (c : BitVec 4) : (s.complete c).status = c := rfl
@[simp] theorem State.complete_fType (c : BitVec 4) : (s.complete c).fType = s.fType := rfl
@[simp] theorem State.complete_fSize (c : BitVec 4) : (s.complete c).fSize = s.fSize := rfl
@[simp] theorem State.complete_fCsum (c : BitVec 4) : (s.complete c).fCsum = s.fCsum := rfl
@[simp] theorem State.complete_wLen (c : BitVec 4) : (s.complete c).wLen = s.wLen := rfl
@[simp] theorem State.complete_fData (c : BitVec 4) : (s.complete c).fData = s.fData := rfl
@[simp] theorem State.complete_wBuf (c : BitVec 4) : (s.complete c).wBuf = s.wBuf := rfl
@[simp] theorem State.complete_faultMark (c : BitVec 4) : (s.complete c).faultMark = s.faultMark := rfl
@[simp] theorem State.complete_refusalMark (c : BitVec 4) : (s.complete c).refusalMark = s.refusalMark := rfl
@[simp] theorem State.complete_work (c : BitVec 4) : (s.complete c).work = s.work := rfl
@[simp] theorem State.complete_pending (c : BitVec 4) : (s.complete c).pending = s.pending := rfl
@[simp] theorem State.complete_responses (c : BitVec 4) : (s.complete c).responses = s.responses := rfl

@[simp] theorem State.setType_config (v : Half) : (s.setType v).config = s.config := rfl
@[simp] theorem State.setType_mode (v : Half) : (s.setType v).mode = s.mode := rfl
@[simp] theorem State.setType_status (v : Half) : (s.setType v).status = s.status := rfl
@[simp] theorem State.setType_fType (v : Half) : (s.setType v).fType = .written v := rfl
@[simp] theorem State.setType_fSize (v : Half) : (s.setType v).fSize = s.fSize := rfl
@[simp] theorem State.setType_fCsum (v : Half) : (s.setType v).fCsum = s.fCsum := rfl
@[simp] theorem State.setType_wLen (v : Half) : (s.setType v).wLen = s.wLen := rfl
@[simp] theorem State.setType_fData (v : Half) : (s.setType v).fData = s.fData := rfl
@[simp] theorem State.setType_wBuf (v : Half) : (s.setType v).wBuf = s.wBuf := rfl
@[simp] theorem State.setType_faultMark (v : Half) : (s.setType v).faultMark = s.faultMark := rfl
@[simp] theorem State.setType_refusalMark (v : Half) : (s.setType v).refusalMark = s.refusalMark := rfl
@[simp] theorem State.setType_work (v : Half) : (s.setType v).work = s.work := rfl
@[simp] theorem State.setType_pending (v : Half) : (s.setType v).pending = s.pending := rfl
@[simp] theorem State.setType_responses (v : Half) : (s.setType v).responses = s.responses := rfl

@[simp] theorem State.setSize_config (v : Half) : (s.setSize v).config = s.config := rfl
@[simp] theorem State.setSize_mode (v : Half) : (s.setSize v).mode = s.mode := rfl
@[simp] theorem State.setSize_status (v : Half) : (s.setSize v).status = s.status := rfl
@[simp] theorem State.setSize_fType (v : Half) : (s.setSize v).fType = s.fType := rfl
@[simp] theorem State.setSize_fSize (v : Half) : (s.setSize v).fSize = .written v := rfl
@[simp] theorem State.setSize_fCsum (v : Half) : (s.setSize v).fCsum = s.fCsum := rfl
@[simp] theorem State.setSize_wLen (v : Half) : (s.setSize v).wLen = s.wLen := rfl
@[simp] theorem State.setSize_fData (v : Half) : (s.setSize v).fData = s.fData := rfl
@[simp] theorem State.setSize_wBuf (v : Half) : (s.setSize v).wBuf = s.wBuf := rfl
@[simp] theorem State.setSize_faultMark (v : Half) : (s.setSize v).faultMark = s.faultMark := rfl
@[simp] theorem State.setSize_refusalMark (v : Half) : (s.setSize v).refusalMark = s.refusalMark := rfl
@[simp] theorem State.setSize_work (v : Half) : (s.setSize v).work = s.work := rfl
@[simp] theorem State.setSize_pending (v : Half) : (s.setSize v).pending = s.pending := rfl
@[simp] theorem State.setSize_responses (v : Half) : (s.setSize v).responses = s.responses := rfl

@[simp] theorem State.setCsum_config (v : Half) : (s.setCsum v).config = s.config := rfl
@[simp] theorem State.setCsum_mode (v : Half) : (s.setCsum v).mode = s.mode := rfl
@[simp] theorem State.setCsum_status (v : Half) : (s.setCsum v).status = s.status := rfl
@[simp] theorem State.setCsum_fType (v : Half) : (s.setCsum v).fType = s.fType := rfl
@[simp] theorem State.setCsum_fSize (v : Half) : (s.setCsum v).fSize = s.fSize := rfl
@[simp] theorem State.setCsum_fCsum (v : Half) : (s.setCsum v).fCsum = .written v := rfl
@[simp] theorem State.setCsum_wLen (v : Half) : (s.setCsum v).wLen = s.wLen := rfl
@[simp] theorem State.setCsum_fData (v : Half) : (s.setCsum v).fData = s.fData := rfl
@[simp] theorem State.setCsum_wBuf (v : Half) : (s.setCsum v).wBuf = s.wBuf := rfl
@[simp] theorem State.setCsum_faultMark (v : Half) : (s.setCsum v).faultMark = s.faultMark := rfl
@[simp] theorem State.setCsum_refusalMark (v : Half) : (s.setCsum v).refusalMark = s.refusalMark := rfl
@[simp] theorem State.setCsum_work (v : Half) : (s.setCsum v).work = s.work := rfl
@[simp] theorem State.setCsum_pending (v : Half) : (s.setCsum v).pending = s.pending := rfl
@[simp] theorem State.setCsum_responses (v : Half) : (s.setCsum v).responses = s.responses := rfl

@[simp] theorem State.setWireLen_config (v : Wide) : (s.setWireLen v).config = s.config := rfl
@[simp] theorem State.setWireLen_mode (v : Wide) : (s.setWireLen v).mode = s.mode := rfl
@[simp] theorem State.setWireLen_status (v : Wide) : (s.setWireLen v).status = s.status := rfl
@[simp] theorem State.setWireLen_fType (v : Wide) : (s.setWireLen v).fType = s.fType := rfl
@[simp] theorem State.setWireLen_fSize (v : Wide) : (s.setWireLen v).fSize = s.fSize := rfl
@[simp] theorem State.setWireLen_fCsum (v : Wide) : (s.setWireLen v).fCsum = s.fCsum := rfl
@[simp] theorem State.setWireLen_wLen (v : Wide) : (s.setWireLen v).wLen = .written v := rfl
@[simp] theorem State.setWireLen_fData (v : Wide) : (s.setWireLen v).fData = s.fData := rfl
@[simp] theorem State.setWireLen_wBuf (v : Wide) : (s.setWireLen v).wBuf = s.wBuf := rfl
@[simp] theorem State.setWireLen_faultMark (v : Wide) : (s.setWireLen v).faultMark = s.faultMark := rfl
@[simp] theorem State.setWireLen_refusalMark (v : Wide) : (s.setWireLen v).refusalMark = s.refusalMark := rfl
@[simp] theorem State.setWireLen_work (v : Wide) : (s.setWireLen v).work = s.work := rfl
@[simp] theorem State.setWireLen_pending (v : Wide) : (s.setWireLen v).pending = s.pending := rfl
@[simp] theorem State.setWireLen_responses (v : Wide) : (s.setWireLen v).responses = s.responses := rfl

@[simp] theorem State.setData_config (k : Nat) (bs : List Byte) : (s.setData k bs).config = s.config := rfl
@[simp] theorem State.setData_mode (k : Nat) (bs : List Byte) : (s.setData k bs).mode = s.mode := rfl
@[simp] theorem State.setData_status (k : Nat) (bs : List Byte) : (s.setData k bs).status = s.status := rfl
@[simp] theorem State.setData_fType (k : Nat) (bs : List Byte) : (s.setData k bs).fType = s.fType := rfl
@[simp] theorem State.setData_fSize (k : Nat) (bs : List Byte) : (s.setData k bs).fSize = s.fSize := rfl
@[simp] theorem State.setData_fCsum (k : Nat) (bs : List Byte) : (s.setData k bs).fCsum = s.fCsum := rfl
@[simp] theorem State.setData_wLen (k : Nat) (bs : List Byte) : (s.setData k bs).wLen = s.wLen := rfl
@[simp] theorem State.setData_fData (k : Nat) (bs : List Byte) : (s.setData k bs).fData = s.fData.writeFrom k bs := rfl
@[simp] theorem State.setData_wBuf (k : Nat) (bs : List Byte) : (s.setData k bs).wBuf = s.wBuf := rfl
@[simp] theorem State.setData_faultMark (k : Nat) (bs : List Byte) : (s.setData k bs).faultMark = s.faultMark := rfl
@[simp] theorem State.setData_refusalMark (k : Nat) (bs : List Byte) : (s.setData k bs).refusalMark = s.refusalMark := rfl
@[simp] theorem State.setData_work (k : Nat) (bs : List Byte) : (s.setData k bs).work = s.work := rfl
@[simp] theorem State.setData_pending (k : Nat) (bs : List Byte) : (s.setData k bs).pending = s.pending := rfl
@[simp] theorem State.setData_responses (k : Nat) (bs : List Byte) : (s.setData k bs).responses = s.responses := rfl

@[simp] theorem State.setWire_config (k : Nat) (bs : List Byte) : (s.setWire k bs).config = s.config := rfl
@[simp] theorem State.setWire_mode (k : Nat) (bs : List Byte) : (s.setWire k bs).mode = s.mode := rfl
@[simp] theorem State.setWire_status (k : Nat) (bs : List Byte) : (s.setWire k bs).status = s.status := rfl
@[simp] theorem State.setWire_fType (k : Nat) (bs : List Byte) : (s.setWire k bs).fType = s.fType := rfl
@[simp] theorem State.setWire_fSize (k : Nat) (bs : List Byte) : (s.setWire k bs).fSize = s.fSize := rfl
@[simp] theorem State.setWire_fCsum (k : Nat) (bs : List Byte) : (s.setWire k bs).fCsum = s.fCsum := rfl
@[simp] theorem State.setWire_wLen (k : Nat) (bs : List Byte) : (s.setWire k bs).wLen = s.wLen := rfl
@[simp] theorem State.setWire_fData (k : Nat) (bs : List Byte) : (s.setWire k bs).fData = s.fData := rfl
@[simp] theorem State.setWire_wBuf (k : Nat) (bs : List Byte) : (s.setWire k bs).wBuf = s.wBuf.writeFrom k bs := rfl
@[simp] theorem State.setWire_faultMark (k : Nat) (bs : List Byte) : (s.setWire k bs).faultMark = s.faultMark := rfl
@[simp] theorem State.setWire_refusalMark (k : Nat) (bs : List Byte) : (s.setWire k bs).refusalMark = s.refusalMark := rfl
@[simp] theorem State.setWire_work (k : Nat) (bs : List Byte) : (s.setWire k bs).work = s.work := rfl
@[simp] theorem State.setWire_pending (k : Nat) (bs : List Byte) : (s.setWire k bs).pending = s.pending := rfl
@[simp] theorem State.setWire_responses (k : Nat) (bs : List Byte) : (s.setWire k bs).responses = s.responses := rfl

@[simp] theorem State.setWork_config (w : Work) : (s.setWork w).config = s.config := rfl
@[simp] theorem State.setWork_mode (w : Work) : (s.setWork w).mode = s.mode := rfl
@[simp] theorem State.setWork_status (w : Work) : (s.setWork w).status = s.status := rfl
@[simp] theorem State.setWork_fType (w : Work) : (s.setWork w).fType = s.fType := rfl
@[simp] theorem State.setWork_fSize (w : Work) : (s.setWork w).fSize = s.fSize := rfl
@[simp] theorem State.setWork_fCsum (w : Work) : (s.setWork w).fCsum = s.fCsum := rfl
@[simp] theorem State.setWork_wLen (w : Work) : (s.setWork w).wLen = s.wLen := rfl
@[simp] theorem State.setWork_fData (w : Work) : (s.setWork w).fData = s.fData := rfl
@[simp] theorem State.setWork_wBuf (w : Work) : (s.setWork w).wBuf = s.wBuf := rfl
@[simp] theorem State.setWork_faultMark (w : Work) : (s.setWork w).faultMark = s.faultMark := rfl
@[simp] theorem State.setWork_refusalMark (w : Work) : (s.setWork w).refusalMark = s.refusalMark := rfl
@[simp] theorem State.setWork_work (w : Work) : (s.setWork w).work = w := rfl
@[simp] theorem State.setWork_pending (w : Work) : (s.setWork w).pending = s.pending := rfl
@[simp] theorem State.setWork_responses (w : Work) : (s.setWork w).responses = s.responses := rfl

@[simp] theorem State.respond_config (w : Word) : (s.respond w).config = s.config := rfl
@[simp] theorem State.respond_mode (w : Word) : (s.respond w).mode = s.mode := rfl
@[simp] theorem State.respond_status (w : Word) : (s.respond w).status = s.status := rfl
@[simp] theorem State.respond_fType (w : Word) : (s.respond w).fType = s.fType := rfl
@[simp] theorem State.respond_fSize (w : Word) : (s.respond w).fSize = s.fSize := rfl
@[simp] theorem State.respond_fCsum (w : Word) : (s.respond w).fCsum = s.fCsum := rfl
@[simp] theorem State.respond_wLen (w : Word) : (s.respond w).wLen = s.wLen := rfl
@[simp] theorem State.respond_fData (w : Word) : (s.respond w).fData = s.fData := rfl
@[simp] theorem State.respond_wBuf (w : Word) : (s.respond w).wBuf = s.wBuf := rfl
@[simp] theorem State.respond_faultMark (w : Word) : (s.respond w).faultMark = s.faultMark := rfl
@[simp] theorem State.respond_refusalMark (w : Word) : (s.respond w).refusalMark = s.refusalMark := rfl
@[simp] theorem State.respond_work (w : Word) : (s.respond w).work = s.work := rfl
@[simp] theorem State.respond_pending (w : Word) : (s.respond w).pending = s.pending := rfl
@[simp] theorem State.respond_responses (w : Word) : (s.respond w).responses = s.responses ++ [w] := rfl

@[simp] theorem State.setPending_config (ws : List Word) : (s.setPending ws).config = s.config := rfl
@[simp] theorem State.setPending_mode (ws : List Word) : (s.setPending ws).mode = s.mode := rfl
@[simp] theorem State.setPending_status (ws : List Word) : (s.setPending ws).status = s.status := rfl
@[simp] theorem State.setPending_fType (ws : List Word) : (s.setPending ws).fType = s.fType := rfl
@[simp] theorem State.setPending_fSize (ws : List Word) : (s.setPending ws).fSize = s.fSize := rfl
@[simp] theorem State.setPending_fCsum (ws : List Word) : (s.setPending ws).fCsum = s.fCsum := rfl
@[simp] theorem State.setPending_wLen (ws : List Word) : (s.setPending ws).wLen = s.wLen := rfl
@[simp] theorem State.setPending_fData (ws : List Word) : (s.setPending ws).fData = s.fData := rfl
@[simp] theorem State.setPending_wBuf (ws : List Word) : (s.setPending ws).wBuf = s.wBuf := rfl
@[simp] theorem State.setPending_faultMark (ws : List Word) : (s.setPending ws).faultMark = s.faultMark := rfl
@[simp] theorem State.setPending_refusalMark (ws : List Word) : (s.setPending ws).refusalMark = s.refusalMark := rfl
@[simp] theorem State.setPending_work (ws : List Word) : (s.setPending ws).work = s.work := rfl
@[simp] theorem State.setPending_pending (ws : List Word) : (s.setPending ws).pending = ws := rfl
@[simp] theorem State.setPending_responses (ws : List Word) : (s.setPending ws).responses = s.responses := rfl

@[simp] theorem State.setFaultMark_config (b : Bool) : (s.setFaultMark b).config = s.config := rfl
@[simp] theorem State.setFaultMark_mode (b : Bool) : (s.setFaultMark b).mode = s.mode := rfl
@[simp] theorem State.setFaultMark_status (b : Bool) : (s.setFaultMark b).status = s.status := rfl
@[simp] theorem State.setFaultMark_fType (b : Bool) : (s.setFaultMark b).fType = s.fType := rfl
@[simp] theorem State.setFaultMark_fSize (b : Bool) : (s.setFaultMark b).fSize = s.fSize := rfl
@[simp] theorem State.setFaultMark_fCsum (b : Bool) : (s.setFaultMark b).fCsum = s.fCsum := rfl
@[simp] theorem State.setFaultMark_wLen (b : Bool) : (s.setFaultMark b).wLen = s.wLen := rfl
@[simp] theorem State.setFaultMark_fData (b : Bool) : (s.setFaultMark b).fData = s.fData := rfl
@[simp] theorem State.setFaultMark_wBuf (b : Bool) : (s.setFaultMark b).wBuf = s.wBuf := rfl
@[simp] theorem State.setFaultMark_faultMark (b : Bool) : (s.setFaultMark b).faultMark = b := rfl
@[simp] theorem State.setFaultMark_refusalMark (b : Bool) : (s.setFaultMark b).refusalMark = s.refusalMark := rfl
@[simp] theorem State.setFaultMark_work (b : Bool) : (s.setFaultMark b).work = s.work := rfl
@[simp] theorem State.setFaultMark_pending (b : Bool) : (s.setFaultMark b).pending = s.pending := rfl
@[simp] theorem State.setFaultMark_responses (b : Bool) : (s.setFaultMark b).responses = s.responses := rfl

@[simp] theorem State.setRefusalMark_config (b : Bool) : (s.setRefusalMark b).config = s.config := rfl
@[simp] theorem State.setRefusalMark_mode (b : Bool) : (s.setRefusalMark b).mode = s.mode := rfl
@[simp] theorem State.setRefusalMark_status (b : Bool) : (s.setRefusalMark b).status = s.status := rfl
@[simp] theorem State.setRefusalMark_fType (b : Bool) : (s.setRefusalMark b).fType = s.fType := rfl
@[simp] theorem State.setRefusalMark_fSize (b : Bool) : (s.setRefusalMark b).fSize = s.fSize := rfl
@[simp] theorem State.setRefusalMark_fCsum (b : Bool) : (s.setRefusalMark b).fCsum = s.fCsum := rfl
@[simp] theorem State.setRefusalMark_wLen (b : Bool) : (s.setRefusalMark b).wLen = s.wLen := rfl
@[simp] theorem State.setRefusalMark_fData (b : Bool) : (s.setRefusalMark b).fData = s.fData := rfl
@[simp] theorem State.setRefusalMark_wBuf (b : Bool) : (s.setRefusalMark b).wBuf = s.wBuf := rfl
@[simp] theorem State.setRefusalMark_faultMark (b : Bool) : (s.setRefusalMark b).faultMark = s.faultMark := rfl
@[simp] theorem State.setRefusalMark_refusalMark (b : Bool) : (s.setRefusalMark b).refusalMark = b := rfl
@[simp] theorem State.setRefusalMark_work (b : Bool) : (s.setRefusalMark b).work = s.work := rfl
@[simp] theorem State.setRefusalMark_pending (b : Bool) : (s.setRefusalMark b).pending = s.pending := rfl
@[simp] theorem State.setRefusalMark_responses (b : Bool) : (s.setRefusalMark b).responses = s.responses := rfl

/-! ### The commit of ENCODE (R163) -/

@[simp] theorem State.commitEncoded_config (out : List Byte) (c : Half) : (s.commitEncoded out c).config = s.config := rfl
@[simp] theorem State.commitEncoded_mode (out : List Byte) (c : Half) : (s.commitEncoded out c).mode = s.mode := rfl
@[simp] theorem State.commitEncoded_status (out : List Byte) (c : Half) : (s.commitEncoded out c).status = okCode := rfl
@[simp] theorem State.commitEncoded_fType (out : List Byte) (c : Half) : (s.commitEncoded out c).fType = s.fType := rfl
@[simp] theorem State.commitEncoded_fSize (out : List Byte) (c : Half) : (s.commitEncoded out c).fSize = s.fSize := rfl
@[simp] theorem State.commitEncoded_fCsum (out : List Byte) (c : Half) : (s.commitEncoded out c).fCsum = .written c := rfl
@[simp] theorem State.commitEncoded_wLen (out : List Byte) (c : Half) : (s.commitEncoded out c).wLen = .written (BitVec.ofNat 18 out.length) := rfl
@[simp] theorem State.commitEncoded_fData (out : List Byte) (c : Half) : (s.commitEncoded out c).fData = s.fData := rfl
@[simp] theorem State.commitEncoded_wBuf (out : List Byte) (c : Half) : (s.commitEncoded out c).wBuf = s.wBuf.writeFrom 0 out := rfl
@[simp] theorem State.commitEncoded_faultMark (out : List Byte) (c : Half) : (s.commitEncoded out c).faultMark = s.faultMark := rfl
@[simp] theorem State.commitEncoded_refusalMark (out : List Byte) (c : Half) : (s.commitEncoded out c).refusalMark = s.refusalMark := rfl
@[simp] theorem State.commitEncoded_work (out : List Byte) (c : Half) : (s.commitEncoded out c).work = s.work := rfl
@[simp] theorem State.commitEncoded_pending (out : List Byte) (c : Half) : (s.commitEncoded out c).pending = s.pending := rfl
@[simp] theorem State.commitEncoded_responses (out : List Byte) (c : Half) : (s.commitEncoded out c).responses = s.responses := rfl

/-! ### The commit of DECODE (R191) -/

@[simp] theorem State.commitDecoded_config (r : Decoded) : (s.commitDecoded r).config = s.config := rfl
@[simp] theorem State.commitDecoded_mode (r : Decoded) : (s.commitDecoded r).mode = s.mode := rfl
@[simp] theorem State.commitDecoded_status (r : Decoded) : (s.commitDecoded r).status = okCode := rfl
@[simp] theorem State.commitDecoded_fType (r : Decoded) : (s.commitDecoded r).fType = .written r.frame.type := rfl
@[simp] theorem State.commitDecoded_fSize (r : Decoded) : (s.commitDecoded r).fSize = .written r.frame.size := rfl
@[simp] theorem State.commitDecoded_fCsum (r : Decoded) : (s.commitDecoded r).fCsum = .written r.csum := rfl
@[simp] theorem State.commitDecoded_wLen (r : Decoded) : (s.commitDecoded r).wLen = s.wLen := rfl
@[simp] theorem State.commitDecoded_fData (r : Decoded) : (s.commitDecoded r).fData = s.fData.writeFrom 0 r.frame.data := rfl
@[simp] theorem State.commitDecoded_wBuf (r : Decoded) : (s.commitDecoded r).wBuf = s.wBuf := rfl
@[simp] theorem State.commitDecoded_faultMark (r : Decoded) : (s.commitDecoded r).faultMark = s.faultMark := rfl
@[simp] theorem State.commitDecoded_refusalMark (r : Decoded) : (s.commitDecoded r).refusalMark = s.refusalMark := rfl
@[simp] theorem State.commitDecoded_work (r : Decoded) : (s.commitDecoded r).work = s.work := rfl
@[simp] theorem State.commitDecoded_pending (r : Decoded) : (s.commitDecoded r).pending = s.pending := rfl
@[simp] theorem State.commitDecoded_responses (r : Decoded) : (s.commitDecoded r).responses = s.responses := rfl

/-! ### After reset -/

@[simp] theorem State.resetUnwritten_config (c : Config) : (State.resetUnwritten c).config = c := rfl
@[simp] theorem State.resetUnwritten_mode (c : Config) : (State.resetUnwritten c).mode = .bootRom := rfl
@[simp] theorem State.resetUnwritten_status (c : Config) : (State.resetUnwritten c).status = 0#4 := rfl
@[simp] theorem State.resetUnwritten_fType (c : Config) : (State.resetUnwritten c).fType = .unwritten := rfl
@[simp] theorem State.resetUnwritten_fSize (c : Config) : (State.resetUnwritten c).fSize = .unwritten := rfl
@[simp] theorem State.resetUnwritten_fCsum (c : Config) : (State.resetUnwritten c).fCsum = .unwritten := rfl
@[simp] theorem State.resetUnwritten_wLen (c : Config) : (State.resetUnwritten c).wLen = .unwritten := rfl
@[simp] theorem State.resetUnwritten_fData (c : Config) : (State.resetUnwritten c).fData = [] := rfl
@[simp] theorem State.resetUnwritten_wBuf (c : Config) : (State.resetUnwritten c).wBuf = [] := rfl
@[simp] theorem State.resetUnwritten_faultMark (c : Config) : (State.resetUnwritten c).faultMark = false := rfl
@[simp] theorem State.resetUnwritten_refusalMark (c : Config) : (State.resetUnwritten c).refusalMark = false := rfl
@[simp] theorem State.resetUnwritten_work (c : Config) : (State.resetUnwritten c).work = .idle := rfl
@[simp] theorem State.resetUnwritten_pending (c : Config) : (State.resetUnwritten c).pending = [] := rfl
@[simp] theorem State.resetUnwritten_responses (c : Config) : (State.resetUnwritten c).responses = [] := rfl

@[simp] theorem State.resetWith_config (c : Config) : (State.resetWith c).config = c := rfl
@[simp] theorem State.resetWith_mode (c : Config) : (State.resetWith c).mode = .bootRom := rfl
@[simp] theorem State.resetWith_status (c : Config) : (State.resetWith c).status = 0#4 := rfl
@[simp] theorem State.resetWith_fType (c : Config) : (State.resetWith c).fType = .written 0#16 := rfl
@[simp] theorem State.resetWith_fSize (c : Config) : (State.resetWith c).fSize = .written 0#16 := rfl
@[simp] theorem State.resetWith_fCsum (c : Config) : (State.resetWith c).fCsum = .written 0#16 := rfl
@[simp] theorem State.resetWith_wLen (c : Config) : (State.resetWith c).wLen = .written 0#18 := rfl
@[simp] theorem State.resetWith_fData (c : Config) : (State.resetWith c).fData = [] := rfl
@[simp] theorem State.resetWith_wBuf (c : Config) : (State.resetWith c).wBuf = [] := rfl
@[simp] theorem State.resetWith_faultMark (c : Config) : (State.resetWith c).faultMark = false := rfl
@[simp] theorem State.resetWith_refusalMark (c : Config) : (State.resetWith c).refusalMark = false := rfl
@[simp] theorem State.resetWith_work (c : Config) : (State.resetWith c).work = .idle := rfl
@[simp] theorem State.resetWith_pending (c : Config) : (State.resetWith c).pending = [] := rfl
@[simp] theorem State.resetWith_responses (c : Config) : (State.resetWith c).responses = [] := rfl

end Sys2Proof.Machine
end

