-- ==== Sys2Proof/Laws/Ops.lean ====
section
/-! SUPPORT. For each shared operation, once, everything it can do; and what a step can do. -/

namespace Sys2Proof.Machine

/-! ### Reads that may fault, and range checks -/

theorem orFault_next {α : Type} {v : Option α} {k : α → Outcome} {t : State} (h : orFault v k = .next t) :
    ∃ a, v = some a ∧ k a = .next t := by
  cases v with
  | none => cases h
  | some a => exact ⟨a, rfl, h⟩

@[simp] theorem orFault_some {α : Type} (a : α) (k : α → Outcome) : orFault (some a) k = k a := rfl
@[simp] theorem orFault_none {α : Type} (k : α → Outcome) : orFault (none : Option α) k = .fault .unwrittenRead := rfl

theorem withDataIndex_next {i : Half} {k : Nat → Outcome} {t : State} (h : withDataIndex i k = .next t) :
    i.toNat < dataCap ∧ k i.toNat = .next t := by
  unfold withDataIndex at h
  split at h
  · exact ⟨‹_›, h⟩
  · cases h

theorem withWireIndex_next {s : State} {i : Wide} {k : Nat → Outcome} {t : State}
    (h : withWireIndex s i k = .next t) : i.toNat < s.config.wireCap ∧ k i.toNat = .next t := by
  unfold withWireIndex at h
  split at h
  · exact ⟨‹_›, h⟩
  · cases h

theorem withWireLength_next {s : State} {v : Wide} {k : Wide → Outcome} {t : State}
    (h : withWireLength s v k = .next t) : v.toNat ≤ s.config.wireCap ∧ k v = .next t := by
  unfold withWireLength at h
  split at h
  · exact ⟨‹_›, h⟩
  · cases h

theorem Reg.value?_eq_some {n : Nat} {r : Reg n} {v : BitVec n} : r.value? = some v ↔ r = .written v := by
  cases r <;> simp [Reg.value?]

/-! ### Marks (R246, R247) -/

@[simp] theorem State.afterOutcome_next (s t : State) : s.afterOutcome (.next t) = t := rfl
@[simp] theorem State.afterOutcome_fault (s : State) (r : Fault) :
    s.afterOutcome (.fault r) = s.setFaultMark true := rfl
@[simp] theorem State.afterOutcome_refused (s : State) (r : Refusal) :
    s.afterOutcome (.refused r) = s.setRefusalMark true := rfl

theorem fetch_faultMark {s : State} (h : s.faultMark = true) : fetch s = .fault .faultMarkSet := by
  simp [fetch, h]

theorem fetch_refusalMark {s : State} (h0 : s.faultMark = false) (h : s.refusalMark = true) :
    fetch s = .refused .refusalMarkSet := by
  simp [fetch, h0, h]

/-! ### What a fetch and a step can do -/

/-- If fetch gives an instruction, it is the oldest command word's, or the next item of a codec command in progress. -/
theorem fetch_cases {s t : State} {i : Instr} (h : fetch s = .next (some (i, t))) :
    s.faultMark = false ∧ s.refusalMark = false ∧
    ((∃ d b, s.work = .decoding d ∧ s.wBuf.read d.pos = some b ∧ i = d.nextItem b ∧ t = s) ∨
      (∃ e, s.work = .encoding e ∧ i = e.nextItem ∧ t = s) ∨
      (∃ w ws, s.work = .idle ∧ s.pending = w :: ws ∧ decode (.command w) = .ok i ∧ t = s.setPending ws)) := by
  unfold fetch at h
  split at h
  · cases h
  split at h
  · cases h
  refine ⟨by simp_all, by simp_all, ?_⟩
  split at h
  · rename_i d hd
    split at h
    · rename_i b hb
      simp only [Host.Outcome.next.injEq, Option.some.injEq, Prod.mk.injEq] at h
      exact .inl ⟨d, b, hd, hb, h.1.symm, h.2.symm⟩
    · cases h
  · rename_i e he
    simp only [Host.Outcome.next.injEq, Option.some.injEq, Prod.mk.injEq] at h
    exact .inr (.inl ⟨e, he, h.1.symm, h.2.symm⟩)
  · rename_i hw
    split at h
    · cases h
    · rename_i w ws hp
      split at h
      · rename_i j hj
        simp only [Host.Outcome.next.injEq, Option.some.injEq, Prod.mk.injEq] at h
        exact .inr (.inr ⟨w, ws, hw, hp, h.1 ▸ hj, h.2.symm⟩)
      · cases h

/-- If a step completes, it ran an instruction that fetch gave, or the block waits for a command. -/
theorem step_cases {s t : State} (h : step s = .next t) :
    (∃ i u, fetch s = .next (some (i, u)) ∧ exec i u = .next t) ∨ (fetch s = .next none ∧ t = s) := by
  unfold step at h
  split at h
  · rename_i i u hf
    exact .inl ⟨i, u, hf, h⟩
  · rename_i hf
    exact .inr ⟨hf, by cases h; rfl⟩
  · cases h
  · cases h

end Sys2Proof.Machine
end

