-- ==== Sys2Proof/Laws/PerInstr.lean ====
section
/-! SUPPORT. The family TableRow: the encoder sets the bits that the instruction's row of spec/opcode_table.json fixes, in
the row's width. -/

namespace Sys2Proof.Laws

/-- Bits, match and mask of the row, as the table prints them. WIRE_LIT is any byte but 0x7D and fixes none of its bits;
ENC_ESCAPE is 0x7D5E or 0x7D5D, so it fixes its high byte. -/
def tableRow : Instr → Nat × Word × Word
  | .setmode _ => (32, 0x10000000#32, 0xFFFFFFFE#32)
  | .csum => (32, 0x20000000#32, 0xFFFFFFFF#32)
  | .encode => (32, 0x30000000#32, 0xFFFFFFFF#32)
  | .decode => (32, 0x40000000#32, 0xFFFFFFFF#32)
  | .wrtype _ => (32, 0x50000000#32, 0xFFFF0000#32)
  | .wrsize _ => (32, 0x60000000#32, 0xFFFF0000#32)
  | .wrdata _ _ => (32, 0x70000000#32, 0xFF000000#32)
  | .wrwlen _ => (32, 0x80000000#32, 0xFFFC0000#32)
  | .wrwbuf _ _ => (32, 0x90000000#32, 0xFC000000#32)
  | .rdreg _ => (32, 0xA0000000#32, 0xFFFFFFF0#32)
  | .rddata _ => (32, 0xB0000000#32, 0xFF0000FF#32)
  | .rdwbuf _ => (32, 0xC0000000#32, 0xFC0000FF#32)
  | .reservedOp0 _ => (32, 0x00000000#32, 0xF0000000#32)
  | .reservedOpD _ => (32, 0xD0000000#32, 0xF0000000#32)
  | .reservedOpE _ => (32, 0xE0000000#32, 0xF0000000#32)
  | .reservedOpF _ => (32, 0xF0000000#32, 0xF0000000#32)
  | .typeConnect => (16, 0x0000#32, 0xFFFF#32)
  | .typeStartDataTransfer => (16, 0x0001#32, 0xFFFF#32)
  | .typeDataTransfer => (16, 0x0002#32, 0xFFFF#32)
  | .typeEndDataTransfer => (16, 0x0003#32, 0xFFFF#32)
  | .typeExecuteData => (16, 0x0004#32, 0xFFFF#32)
  | .typeReset => (16, 0x0005#32, 0xFFFF#32)
  | .typeReadFlash => (16, 0x0006#32, 0xFFFF#32)
  | .typeEraseFlash => (16, 0x000A#32, 0xFFFF#32)
  | .typeReadFlashType => (16, 0x000C#32, 0xFFFF#32)
  | .typeReadFlashInfo => (16, 0x000D#32, 0xFFFF#32)
  | .typeEnableFlash => (16, 0x001B#32, 0xFFFF#32)
  | .typeAcknowledgement => (16, 0x0080#32, 0xFFFF#32)
  | .typeBanner => (16, 0x0081#32, 0xFFFF#32)
  | .typeDestinationError => (16, 0x0089#32, 0xFFFF#32)
  | .typeSizeError => (16, 0x008A#32, 0xFFFF#32)
  | .typeVerificationError => (16, 0x008B#32, 0xFFFF#32)
  | .typeReadFlashResponse => (16, 0x0093#32, 0xFFFF#32)
  | .typeVerificationFailure => (16, 0x00A6#32, 0xFFFF#32)
  | .wireDelim => (8, 0x7E#32, 0xFF#32)
  | .wireEsc => (8, 0x7D#32, 0xFF#32)
  | .wireLit _ => (8, 0#32, 0#32)
  | .encEscape _ => (16, 0x7D00#32, 0xFF00#32)

/-- The width and the bits of a code, numbered as the table numbers them. -/
def codeBits : Code → Nat × Word
  | .command w => (32, w)
  | .frameType v => (16, v.setWidth 32)
  | .wirePair v => (16, v.setWidth 32)
  | .wireByte _ b => (8, b.setWidth 32)

end Sys2Proof.Laws

namespace Sys2Proof.Laws.TableRow

/-- The encoding of i has its row's width, and its fixed bits are the row's. -/
def Statement (i : Instr) : Prop :=
  (codeBits (Sys2Proof.encode i)).1 = (tableRow i).1 ∧ (codeBits (Sys2Proof.encode i)).2 &&& (tableRow i).2.2 = (tableRow i).2.1

/-- Two 32-bit words are equal if their 32 bits are. -/
theorem word_ext (x y : Word) (h : ∀ k : Fin 32, x.getLsbD k = y.getLsbD k) : x = y :=
  BitVec.eq_of_getLsbD_eq (fun k hk => h ⟨k, hk⟩)

theorem setmode (m : BitVec 1) : Statement (.setmode m) := by
  refine ⟨rfl, word_ext _ _ fun k => ?_⟩
  fin_cases k <;> simp [Sys2Proof.encode, codeBits, tableRow]
theorem csum : Statement (.csum) := by
  refine ⟨rfl, ?_⟩; decide
theorem encode : Statement (.encode) := by
  refine ⟨rfl, ?_⟩; decide
theorem decode : Statement (.decode) := by
  refine ⟨rfl, ?_⟩; decide
theorem wrtype (v : Half) : Statement (.wrtype v) := by
  refine ⟨rfl, word_ext _ _ fun k => ?_⟩
  fin_cases k <;> simp [Sys2Proof.encode, codeBits, tableRow]
theorem wrsize (v : Half) : Statement (.wrsize v) := by
  refine ⟨rfl, word_ext _ _ fun k => ?_⟩
  fin_cases k <;> simp [Sys2Proof.encode, codeBits, tableRow]
theorem wrdata (i : Half) (b : Byte) : Statement (.wrdata i b) := by
  refine ⟨rfl, word_ext _ _ fun k => ?_⟩
  fin_cases k <;> simp [Sys2Proof.encode, codeBits, tableRow]
theorem wrwlen (v : Wide) : Statement (.wrwlen v) := by
  refine ⟨rfl, word_ext _ _ fun k => ?_⟩
  fin_cases k <;> simp [Sys2Proof.encode, codeBits, tableRow]
theorem wrwbuf (i : Wide) (b : Byte) : Statement (.wrwbuf i b) := by
  refine ⟨rfl, word_ext _ _ fun k => ?_⟩
  fin_cases k <;> simp [Sys2Proof.encode, codeBits, tableRow]
theorem rdreg (sel : BitVec 4) : Statement (.rdreg sel) := by
  refine ⟨rfl, word_ext _ _ fun k => ?_⟩
  fin_cases k <;> simp [Sys2Proof.encode, codeBits, tableRow]
theorem rddata (i : Half) : Statement (.rddata i) := by
  refine ⟨rfl, word_ext _ _ fun k => ?_⟩
  fin_cases k <;> simp [Sys2Proof.encode, codeBits, tableRow]
theorem rdwbuf (i : Wide) : Statement (.rdwbuf i) := by
  refine ⟨rfl, word_ext _ _ fun k => ?_⟩
  fin_cases k <;> simp [Sys2Proof.encode, codeBits, tableRow]
theorem reservedOp0 (x : BitVec 28) : Statement (.reservedOp0 x) := by
  refine ⟨rfl, word_ext _ _ fun k => ?_⟩
  fin_cases k <;> simp [Sys2Proof.encode, codeBits, tableRow]
theorem reservedOpD (x : BitVec 28) : Statement (.reservedOpD x) := by
  refine ⟨rfl, word_ext _ _ fun k => ?_⟩
  fin_cases k <;> simp [Sys2Proof.encode, codeBits, tableRow]
theorem reservedOpE (x : BitVec 28) : Statement (.reservedOpE x) := by
  refine ⟨rfl, word_ext _ _ fun k => ?_⟩
  fin_cases k <;> simp [Sys2Proof.encode, codeBits, tableRow]
theorem reservedOpF (x : BitVec 28) : Statement (.reservedOpF x) := by
  refine ⟨rfl, word_ext _ _ fun k => ?_⟩
  fin_cases k <;> simp [Sys2Proof.encode, codeBits, tableRow]
theorem typeConnect : Statement .typeConnect := by refine ⟨rfl, ?_⟩; decide
theorem typeStartDataTransfer : Statement .typeStartDataTransfer := by refine ⟨rfl, ?_⟩; decide
theorem typeDataTransfer : Statement .typeDataTransfer := by refine ⟨rfl, ?_⟩; decide
theorem typeEndDataTransfer : Statement .typeEndDataTransfer := by refine ⟨rfl, ?_⟩; decide
theorem typeExecuteData : Statement .typeExecuteData := by refine ⟨rfl, ?_⟩; decide
theorem typeReset : Statement .typeReset := by refine ⟨rfl, ?_⟩; decide
theorem typeReadFlash : Statement .typeReadFlash := by refine ⟨rfl, ?_⟩; decide
theorem typeEraseFlash : Statement .typeEraseFlash := by refine ⟨rfl, ?_⟩; decide
theorem typeReadFlashType : Statement .typeReadFlashType := by refine ⟨rfl, ?_⟩; decide
theorem typeReadFlashInfo : Statement .typeReadFlashInfo := by refine ⟨rfl, ?_⟩; decide
theorem typeEnableFlash : Statement .typeEnableFlash := by refine ⟨rfl, ?_⟩; decide
theorem typeAcknowledgement : Statement .typeAcknowledgement := by refine ⟨rfl, ?_⟩; decide
theorem typeBanner : Statement .typeBanner := by refine ⟨rfl, ?_⟩; decide
theorem typeDestinationError : Statement .typeDestinationError := by refine ⟨rfl, ?_⟩; decide
theorem typeSizeError : Statement .typeSizeError := by refine ⟨rfl, ?_⟩; decide
theorem typeVerificationError : Statement .typeVerificationError := by refine ⟨rfl, ?_⟩; decide
theorem typeReadFlashResponse : Statement .typeReadFlashResponse := by refine ⟨rfl, ?_⟩; decide
theorem typeVerificationFailure : Statement .typeVerificationFailure := by refine ⟨rfl, ?_⟩; decide
theorem wireDelim : Statement .wireDelim := by refine ⟨rfl, ?_⟩; decide
theorem wireEsc : Statement .wireEsc := by refine ⟨rfl, ?_⟩; decide
theorem wireLit (b : Byte) : Statement (.wireLit b) := by refine ⟨rfl, ?_⟩; simp [codeBits, Sys2Proof.encode, tableRow]
theorem encEscape (b : Byte) : Statement (.encEscape b) := by
  refine ⟨rfl, word_ext _ _ fun k => ?_⟩
  fin_cases k <;> simp [Sys2Proof.encode, codeBits, tableRow]

end Sys2Proof.Laws.TableRow
end

