-- ==== Sys2Proof/Laws/Stuffing.lean ====
section
/-! SUPPORT. The small laws of the byte-stuffer and of ReadField. -/

namespace Sys2Proof.Machine

@[simp] theorem escapeSeq_nil : escapeSeq [] = [] := rfl

@[simp] theorem escapeSeq_cons (b : Byte) (q : List Byte) : escapeSeq (b :: q) = escape b ++ escapeSeq q := rfl

@[simp] theorem escapeSeq_append (p q : List Byte) : escapeSeq (p ++ q) = escapeSeq p ++ escapeSeq q := by
  simp [escapeSeq]

theorem special_iff (b : Byte) : special b = true ↔ b = esc ∨ b = delim := by simp [special]

theorem escape_length (b : Byte) : (escape b).length = if special b then 2 else 1 := by
  unfold escape; split <;> rfl

theorem escapeSeq_length (q : List Byte) : (escapeSeq q).length = q.length + q.countP special := by
  induction q with
  | nil => rfl
  | cons b q ih =>
    rw [escapeSeq_cons, List.length_append, ih, escape_length, List.countP_cons, List.length_cons]
    split <;> omega

/-- No escaped byte is a raw delimiter. -/
theorem delim_not_mem_escape (b : Byte) : delim ∉ escape b := by
  unfold escape
  split
  · rename_i h
    rcases (special_iff b).1 h with rfl | rfl <;> decide
  · rename_i h
    intro hm
    exact h ((special_iff b).2 (.inr (List.mem_singleton.1 hm).symm))

theorem delim_not_mem_escapeSeq (q : List Byte) : delim ∉ escapeSeq q := by
  simp only [escapeSeq, List.mem_flatMap, not_exists, not_and]
  exact fun b _ => delim_not_mem_escape b

/-! ### The monad of DecodeFrame -/

@[simp] theorem require_true (e : CodecError) : require true e = .ok () := rfl
@[simp] theorem require_false (e : CodecError) : require false e = .error (.error e) := rfl

theorem require_ok {ok : Bool} {e : CodecError} {u : Unit} (h : require ok e = .ok u) : ok = true := by
  cases ok with
  | true => rfl
  | false => cases h

theorem rawByte_ok {w : Memory} {pos : Nat} {b : Byte} : rawByte w pos = .ok b ↔ w.read pos = some b := by
  unfold rawByte
  split <;> simp_all

/-- A bind that gives a value gave one in each part. -/
theorem Dec.bind_ok {α β : Type} {x : Dec α} {k : α → Dec β} {b : β} (h : (x >>= k) = .ok b) :
    ∃ a, x = .ok a ∧ k a = .ok b := by
  cases x with
  | error e => cases h
  | ok a => exact ⟨a, rfl, h⟩

@[simp] theorem Dec.ok_bind {α β : Type} (a : α) (k : α → Dec β) : ((Except.ok a : Dec α) >>= k) = k a := rfl
@[simp] theorem Dec.error_bind {α β : Type} (e : DecodeStop) (k : α → Dec β) :
    ((Except.error e : Dec α) >>= k) = .error e := rfl

/-- A field byte that was read moved the cursor by one or two bytes, all of them below the length. -/
theorem readField_ok {ph : Phase} {w : Memory} {len pos : Nat} {b : Byte} {p : Nat}
    (h : readField ph w len pos = .ok (b, p)) :
    (p = pos + 1 ∧ pos + 1 ≤ len ∧ b ≠ esc ∧ w.read pos = some b) ∨
    (p = pos + 2 ∧ pos + 2 ≤ len ∧ w.read pos = some esc ∧ w.read (pos + 1) = some (b ^^^ escXor)) := by
  unfold readField at h
  obtain ⟨_, h1, h⟩ := Dec.bind_ok h
  have h1 := of_decide_eq_true (require_ok h1)
  obtain ⟨x, hx, h⟩ := Dec.bind_ok h
  rw [rawByte_ok] at hx
  split at h
  · rename_i he
    subst he
    obtain ⟨_, h2, h⟩ := Dec.bind_ok h
    have h2 := of_decide_eq_true (require_ok h2)
    obtain ⟨y, hy, h⟩ := Dec.bind_ok h
    rw [rawByte_ok] at hy
    obtain ⟨rfl, rfl⟩ : y ^^^ escXor = b ∧ pos + 2 = p := by simpa using h
    exact .inr ⟨rfl, by omega, hx, by rw [hy, BitVec.xor_assoc, BitVec.xor_self, BitVec.xor_zero]⟩
  · rename_i he
    obtain ⟨rfl, rfl⟩ : x = b ∧ pos + 1 = p := by simpa using h
    exact .inl ⟨rfl, by omega, he, hx⟩

/-- Field bytes that were read are as many as were asked for, and the cursor passed each of them. -/
theorem readFields_ok {ph : Phase} {w : Memory} {len : Nat} :
    ∀ {n pos : Nat} {q : List Byte} {p : Nat}, readFields ph w len n pos = .ok (q, p) →
      q.length = n ∧ pos + n ≤ p ∧ (n = 0 ∨ p ≤ len) := by
  intro n
  induction n with
  | zero =>
    intro pos q p h
    obtain ⟨rfl, rfl⟩ : [] = q ∧ pos = p := by simpa [readFields] using h
    exact ⟨rfl, le_refl _, .inl rfl⟩
  | succ n ih =>
    intro pos q p h
    simp only [readFields] at h
    obtain ⟨⟨b, p1⟩, h1, h⟩ := Dec.bind_ok h
    obtain ⟨⟨bs, p2⟩, h2, h⟩ := Dec.bind_ok h
    obtain ⟨rfl, rfl⟩ : b :: bs = q ∧ p2 = p := by simpa using h
    obtain ⟨hl, hp, hn⟩ := ih h2
    have h3 := readField_ok h1
    refine ⟨by simp [hl], by omega, .inr ?_⟩
    rcases hn with rfl | hn
    · obtain ⟨-, rfl⟩ : [] = bs ∧ p1 = p2 := by simpa [readFields] using h2
      omega
    · exact hn

/-- A big-endian field that was read is two field bytes in a row. -/
theorem readHalf_ok {ph : Phase} {w : Memory} {len pos : Nat} {v : Half} {p : Nat}
    (h : readHalf ph w len pos = .ok (v, p)) :
    ∃ hi lo p1, readField ph w len pos = .ok (hi, p1) ∧ readField ph w len p1 = .ok (lo, p) ∧ v = be16 hi lo := by
  unfold readHalf at h
  obtain ⟨⟨hi, p1⟩, h1, h⟩ := Dec.bind_ok h
  obtain ⟨⟨lo, p2⟩, h2, h⟩ := Dec.bind_ok h
  obtain ⟨rfl, rfl⟩ : be16 hi lo = v ∧ p2 = p := by simpa using h
  exact ⟨hi, lo, p1, h1, h2, rfl⟩

/-- A ReadField that stops ran out of data, or it met an unwritten byte below the length (R143). -/
theorem readField_error {ph : Phase} {w : Memory} {len pos : Nat} {e : DecodeStop}
    (h : readField ph w len pos = .error e) :
    e = .error (outOfData ph) ∨ (e = .unwritten ∧ ∃ k, pos ≤ k ∧ k < len ∧ w.read k = none) := by
  by_cases hp : pos < len
  · cases hx : w.read pos with
    | none =>
      obtain rfl : DecodeStop.unwritten = e := by simpa [readField, hp, rawByte, hx] using h
      exact .inr ⟨rfl, pos, le_refl _, hp, hx⟩
    | some x =>
      by_cases he : x = esc
      · by_cases hq : pos + 1 < len
        · cases hy : w.read (pos + 1) with
          | none =>
            obtain rfl : DecodeStop.unwritten = e := by simpa [readField, hp, rawByte, hx, he, hq, hy] using h
            exact .inr ⟨rfl, pos + 1, by omega, hq, hy⟩
          | some y => simp [readField, hp, rawByte, hx, he, hq, hy] at h
        · exact .inl (by simpa [readField, hp, rawByte, hx, he, hq] using h.symm)
      · simp [readField, hp, rawByte, hx, he] at h
  · exact .inl (by simpa [readField, hp] using h.symm)

/-- ReadField depends on no byte at or beyond the length (R196). -/
theorem readField_congr {w w' : Memory} {len : Nat} (h : ∀ k < len, w'.read k = w.read k) (ph : Phase) (pos : Nat) :
    readField ph w' len pos = readField ph w len pos := by
  unfold readField
  by_cases hp : pos < len
  · by_cases hq : pos + 1 < len
    · simp only [rawByte, h _ hp, h _ hq]
    · simp only [rawByte, h _ hp, hq, decide_false, require_false, Dec.error_bind]
  · simp only [hp, decide_false, require_false, Dec.error_bind]

/-- a + b field bytes in a row are a field bytes and then b. -/
theorem readFields_add (ph : Phase) (w : Memory) (len b : Nat) :
    ∀ a pos : Nat, readFields ph w len (a + b) pos =
      readFields ph w len a pos >>= fun x => readFields ph w len b x.2 >>= fun y => .ok (x.1 ++ y.1, y.2) := by
  intro a
  induction a with
  | zero =>
    intro pos
    rw [Nat.zero_add]
    cases h : readFields ph w len b pos <;> simp [readFields, h]
  | succ a ih =>
    intro pos
    rw [Nat.succ_add]
    simp only [readFields]
    cases readField ph w len pos with
    | error e => rfl
    | ok x =>
      simp only [Dec.ok_bind, ih]
      cases readFields ph w len a x.2 with
      | error e => rfl
      | ok y =>
        simp only [Dec.ok_bind]
        cases readFields ph w len b y.2 <;> rfl

/-- A big-endian field is two field bytes in a row, whether it can be read or not. -/
theorem readHalf_eq (ph : Phase) (w : Memory) (len pos : Nat) :
    readHalf ph w len pos =
      readFields ph w len 2 pos >>= fun x => .ok (be16 (x.1.getD 0 0#8) (x.1.getD 1 0#8), x.2) := by
  simp only [readHalf, readFields]
  cases readField ph w len pos with
  | error e => rfl
  | ok x =>
    simp only [Dec.ok_bind]
    cases readField ph w len x.2 <;> rfl

/-- R180 with both header fields, and the checksum, read as field bytes in a row. -/
theorem decodeFrame_eq (m : Mode) (w : Memory) (len : Nat) : decodeFrame m w len = (do
  require (8 ≤ len) .tooShort
  let first ← rawByte w 0
  require (first = delim) .framingError
  let (h, pos) ← readFields .hdr w len 4 1
  let t := be16 (h.getD 0 0#8) (h.getD 1 0#8)
  let s := be16 (h.getD 2 0#8) (h.getD 3 0#8)
  require (s.toNat ≤ len - 8) .dataUnderflow
  let (d, pos) ← readFields .data w len s.toNat pos
  let (c, pos) ← readFields .csum w len 2 pos
  let wire := be16 (c.getD 0 0#8) (c.getD 1 0#8)
  require (wire = checksum m t s d) .checksumMismatch
  require (pos < len) .framingError
  let last ← rawByte w pos
  require (last = delim) .framingError
  .ok ⟨⟨t, s, d⟩, wire, pos + 1⟩) := by
  unfold decodeFrame
  simp only [readHalf_eq, minFrame]
  congr 1; funext _
  congr 1; funext _
  congr 1; funext _
  rw [show (4:Nat) = 2 + 2 from rfl, readFields_add]
  cases h1 : readFields .hdr w len 2 1 with
  | error e => rfl
  | ok x =>
    have hl := (readFields_ok (q := x.1) (p := x.2) h1).1
    obtain ⟨a, b, hab⟩ : ∃ a b, x.1 = [a, b] := by
      rcases x with ⟨q, _⟩
      match q, hl with
      | [a, b], _ => exact ⟨a, b, rfl⟩
    simp only [Dec.ok_bind]
    cases h2 : readFields .hdr w len 2 x.2 with
    | error e => rfl
    | ok y => simp [hab]

/-- The steps of a DecodeFrame that returned a frame, in order. -/
theorem decodeFrame_ok {m : Mode} {w : Memory} {len : Nat} {r : Decoded} (h : decodeFrame m w len = .ok r) :
    minFrame ≤ len ∧ w.read 0 = some delim ∧
    ∃ p1 p2 p3 p4, readHalf .hdr w len 1 = .ok (r.frame.type, p1) ∧ readHalf .hdr w len p1 = .ok (r.frame.size, p2) ∧
      r.frame.size.toNat ≤ len - 8 ∧ readFields .data w len r.frame.size.toNat p2 = .ok (r.frame.data, p3) ∧
      readHalf .csum w len p3 = .ok (r.csum, p4) ∧ r.csum = checksum m r.frame.type r.frame.size r.frame.data ∧
      p4 < len ∧ w.read p4 = some delim ∧ r.used = p4 + 1 := by
  unfold decodeFrame at h
  obtain ⟨_, h1, h⟩ := Dec.bind_ok h
  obtain ⟨x, hx, h⟩ := Dec.bind_ok h
  obtain ⟨_, h2, h⟩ := Dec.bind_ok h
  obtain ⟨⟨t, p1⟩, h3, h⟩ := Dec.bind_ok h
  obtain ⟨⟨z, p2⟩, h4, h⟩ := Dec.bind_ok h
  obtain ⟨_, h5, h⟩ := Dec.bind_ok h
  obtain ⟨⟨d, p3⟩, h6, h⟩ := Dec.bind_ok h
  obtain ⟨⟨c, p4⟩, h7, h⟩ := Dec.bind_ok h
  obtain ⟨_, h8, h⟩ := Dec.bind_ok h
  obtain ⟨_, h9, h⟩ := Dec.bind_ok h
  obtain ⟨y, hy, h⟩ := Dec.bind_ok h
  obtain ⟨_, h10, h⟩ := Dec.bind_ok h
  obtain rfl : _ = r := Except.ok.inj h
  rw [rawByte_ok] at hx hy
  have h1 := of_decide_eq_true (require_ok h1)
  have h2 := of_decide_eq_true (require_ok h2)
  have h5 := of_decide_eq_true (require_ok h5)
  have h8 := of_decide_eq_true (require_ok h8)
  have h9 := of_decide_eq_true (require_ok h9)
  have h10 := of_decide_eq_true (require_ok h10)
  subst h2 h10
  exact ⟨h1, hx, p1, p2, p3, p4, h3, h4, h5, h6, h7, h8, h9, hy, rfl⟩

end Sys2Proof.Machine
end

