-- ==== Sys2Proof/Laws/WireItems.lean ====
section
/-! SUPPORT. Once, everything an item of a codec command in progress can do. -/

namespace Sys2Proof.Machine

theorem Decoder.proceed_more {d d' : Decoder} (h : d.proceed = .more d') : d' = d ∧ d.pos < d.len := by
  unfold Decoder.proceed at h
  split at h
  · cases h; exact ⟨rfl, ‹_›⟩
  · cases h

theorem Decoder.proceed_not_done {d : Decoder} {r : Decoded} (h : d.proceed = .done r) : False := by
  unfold Decoder.proceed at h
  split at h <;> cases h

theorem Decoder.push_more {d d' : Decoder} {y : Byte} (h : d.push y = .more d') :
    d' = { d with pos := d.pos + 1, escaped := false, bytes := d.bytes ++ [y] } ∧ d.pos + 1 < d.len := by
  simp only [Decoder.push] at h
  split at h
  · cases h
  · split at h
    · cases h
    · obtain ⟨rfl, hp⟩ := Decoder.proceed_more h
      exact ⟨rfl, hp⟩

theorem Decoder.push_not_done {d : Decoder} {y : Byte} {r : Decoded} (h : d.push y = .done r) : False := by
  simp only [Decoder.push] at h
  split at h
  · cases h
  · split at h
    · cases h
    · exact Decoder.proceed_not_done h

/-- A raw byte that does not end the DECODE leaves its mode and length, and a cursor below the length. -/
theorem Decoder.takeRaw_more {d d' : Decoder} {x : Byte} (h : d.takeRaw x = .more d') :
    d'.mode = d.mode ∧ d'.len = d.len ∧ d'.pos = d.pos + 1 ∧ d'.pos < d'.len := by
  unfold Decoder.takeRaw at h
  split at h
  · rename_i hp
    split at h
    · obtain ⟨rfl, hl⟩ := Decoder.proceed_more h
      have h0 : d.pos = 0 := by
        unfold Decoder.place at hp
        repeat' split at hp
        all_goals first | assumption | cases hp
      exact ⟨rfl, rfl, by simp [h0], hl⟩
    · cases h
  · split at h <;> cases h
  · split at h
    · obtain ⟨rfl, hl⟩ := Decoder.push_more h
      exact ⟨rfl, rfl, rfl, hl⟩
    · split at h
      · obtain ⟨rfl, hl⟩ := Decoder.proceed_more h
        exact ⟨rfl, rfl, rfl, hl⟩
      · obtain ⟨rfl, hl⟩ := Decoder.push_more h
        exact ⟨rfl, rfl, rfl, hl⟩

/-- A raw byte that completes the DECODE is the trailing delimiter; the frame is what was assembled. -/
theorem Decoder.takeRaw_done {d : Decoder} {x : Byte} {r : Decoded} (h : d.takeRaw x = .done r) :
    x = delim ∧ d.place = .trailing ∧ r = ⟨⟨d.type, d.size, d.data⟩, d.csum, d.pos + 1⟩ := by
  unfold Decoder.takeRaw at h
  split at h
  · split at h
    · exact (Decoder.proceed_not_done h).elim
    · cases h
  · rename_i hp
    split at h
    · cases h; exact ⟨‹_›, hp, rfl⟩
    · cases h
  · split at h
    · exact (Decoder.push_not_done h).elim
    · split at h
      · exact (Decoder.proceed_not_done h).elim
      · exact (Decoder.push_not_done h).elim

/-- Feeding raw bytes completes: the DECODE goes on, or it ends with the writes of R191 or of R192. -/
theorem State.feed_next (s : State) :
    ∀ (xs : List Byte) (d : Decoder),
      (∃ d', s.feed d xs = .next (s.setWork (.decoding d')) ∧ d'.mode = d.mode ∧ d'.len = d.len ∧
        (xs = [] ∧ d' = d ∨ d'.pos < d'.len)) ∨
      (∃ r, s.feed d xs = .next ((s.setWork .idle).commitDecoded r) ∧ r.frame.data.length ≤ r.frame.size.toNat) ∨
      (∃ e, s.feed d xs = .next ((s.setWork .idle).complete (CodecError.code e))) := by
  intro xs
  induction xs with
  | nil => intro d; exact .inl ⟨d, rfl, rfl, rfl, .inl ⟨rfl, rfl⟩⟩
  | cons x xs ih =>
    intro d
    cases ht : d.takeRaw x with
    | more d1 =>
      have hf : s.feed d (x :: xs) = s.feed d1 xs := by simp [State.feed, ht]
      obtain ⟨hm, hl, -, hp⟩ := Decoder.takeRaw_more ht
      rcases ih d1 with ⟨d', h1, h2, h3, h4⟩ | ⟨r, h1, h2⟩ | ⟨e, h1⟩
      · refine .inl ⟨d', hf.trans h1, h2.trans hm, h3.trans hl, .inr ?_⟩
        rcases h4 with ⟨-, rfl⟩ | h4
        · exact hp
        · exact h4
      · exact .inr (.inl ⟨r, hf.trans h1, h2⟩)
      · exact .inr (.inr ⟨e, hf.trans h1⟩)
    | done r =>
      obtain ⟨-, -, rfl⟩ := Decoder.takeRaw_done ht
      refine .inr (.inl ⟨⟨⟨d.type, d.size, d.data⟩, d.csum, d.pos + 1⟩, by simp [State.feed, ht], ?_⟩)
      simp [Decoder.data]
    | failed e => exact .inr (.inr ⟨e, by simp [State.feed, ht]⟩)

/-- Sending field bytes completes only if they are the next ones. -/
theorem State.send_next {s t : State} {e : Encoder} {q : List Byte} (h : s.send e q = .next t) :
    e.out ≠ [] ∧ ∃ rest, e.todo = q ++ rest ∧ t = s.setWork (.encoding ⟨e.csum, rest, e.out ++ escapeSeq q⟩) := by
  unfold State.send at h
  split at h
  · rename_i hc
    obtain ⟨ho, hp⟩ := hc
    obtain ⟨rest, hr⟩ := List.isPrefixOf_iff_prefix.1 hp
    refine ⟨ho, rest, hr.symm, ?_⟩
    cases h
    simp [← hr]
  · cases h

/-- Sending a delimiter completes only before the first field byte or after the last. -/
theorem State.sendDelim_next {s t : State} {e : Encoder} (h : s.sendDelim e = .next t) :
    (e.out = [] ∧ t = s.setWork (.encoding { e with out := [delim] })) ∨
    (e.out ≠ [] ∧ e.todo = [] ∧ t = (s.setWork .idle).commitEncoded (e.out ++ [delim]) e.csum) := by
  unfold State.sendDelim at h
  split at h
  · cases h; exact .inl ⟨‹_›, rfl⟩
  · split at h
    · cases h; exact .inr ⟨‹_›, ‹_›, rfl⟩
    · cases h

/-- A wire item completes only inside a codec command. -/
theorem wireItem_next {raw : List Byte} {send : Encoder → Outcome} {s t : State} (h : wireItem raw send s = .next t) :
    (∃ d, s.work = .decoding d ∧ s.feed d raw = .next t) ∨ (∃ e, s.work = .encoding e ∧ send e = .next t) := by
  unfold wireItem at h
  split at h
  · exact .inl ⟨_, ‹_›, h⟩
  · exact .inr ⟨_, ‹_›, h⟩
  · cases h

/-- The working state alone was written. -/
theorem GoesOn.setWork (s : State) (w : Work) : GoesOn (.next (s.setWork w)) s w := by
  refine ⟨_, rfl, rfl, fun p hp => ?_⟩
  cases p <;> first | exact absurd (by decide) hp | rfl | exact fun _ => rfl

/-- The codec command ended with the error e. -/
theorem EndsWith.complete (s : State) {e : CodecError} {c : BitVec 4} (h : e.code = c) :
    EndsWith (.next ((s.setWork .idle).complete e.code)) s c := by
  subst h
  refine ⟨_, rfl, rfl, rfl, fun p hp => ?_⟩
  cases p <;> first | exact absurd (by decide) hp | rfl | exact fun _ => rfl

/-- A DECODE in progress takes a wire item as its raw byte. -/
theorem exec_rawByte {s : State} {d : Decoder} {i : Instr} {x : Byte} (hw : s.work = .decoding d)
    (h : i.rawByte? = some x) : exec i s = s.feed d [x] := by
  cases i <;> simp [Instr.rawByte?] at h <;> subst h <;>
    simp [exec, execWireDelim, execWireEsc, execWireLit, wireItem, hw, delim, esc]

/-- R146, R189: past W_LEN in the data is DataUnderflow, anywhere else FramingError. -/
theorem Decoder.outOfData_code {d : Decoder} (h0 : 0 < d.pos) :
    d.outOfData.code = if 4 ≤ d.bytes.length ∧ d.bytes.length < 4 + d.size.toNat then 3#4 else 2#4 := by
  unfold Decoder.outOfData Decoder.place
  rw [if_neg (by omega)]
  by_cases h1 : d.bytes.length < 4
  · rw [if_pos h1, if_neg (by omega)]; rfl
  · rw [if_neg h1]
    by_cases h2 : d.bytes.length < 4 + d.size.toNat
    · rw [if_pos h2, if_pos (by omega)]; rfl
    · rw [if_neg (show ¬ (4 ≤ d.bytes.length ∧ d.bytes.length < 4 + d.size.toNat) by omega), if_neg h2]
      by_cases h3 : d.bytes.length < 6 + d.size.toNat
      · rw [if_pos h3]; rfl
      · rw [if_neg h3]; rfl

/-- The fields of a frame all of whose field bytes have been taken. -/
theorem Decoder.fields_of_bytes {d : Decoder} {t z c : Half} {p : List Byte} (h : p.length = z.toNat)
    (hb : d.bytes = bytesOf t ++ bytesOf z ++ p ++ bytesOf c) :
    d.type = t ∧ d.size = z ∧ d.data = p ∧ d.csum = c ∧ d.bytes.length = 6 + z.toNat := by
  have hz : d.size = z := by simp [Decoder.size, hb, bytesOf]
  refine ⟨by simp [Decoder.type, hb, bytesOf], hz, ?_, ?_, by simp [hb, bytesOf, h]; omega⟩
  · simp only [Decoder.data, hz, hb, bytesOf]
    simp [← h]
  · simp only [Decoder.csum, hz, hb, bytesOf, ← h]
    rw [show 4 + p.length = p.length + 1 + 1 + 1 + 1 by omega, show 5 + p.length = p.length + 1 + 1 + 1 + 1 + 1 by omega]
    simp

/-- A type label completes only at the type field of the frame a codec command works on. -/
theorem typeItem_next {v : Half} {s t : State} (h : typeItem v s = .next t) :
    (∃ d, s.work = .decoding d ∧ d.atType = true ∧ s.feed d (escapeSeq (bytesOf v)) = .next t) ∨
    (∃ e, s.work = .encoding e ∧ e.atType = true ∧ s.send e (bytesOf v) = .next t) := by
  unfold typeItem at h
  split at h
  · split at h
    · exact .inl ⟨_, ‹_›, ‹_›, h⟩
    · cases h
  · split at h
    · exact .inr ⟨_, ‹_›, ‹_›, h⟩
    · cases h
  · cases h

end Sys2Proof.Machine
end

