-- ==== Sys2Proof/Tests/Slice0.lean ====
section
/-! SUPPORT. Small tests of the model against the words and values spec/ prints (95_test_vectors.md, named in each
docstring), and for every statement with hypotheses a concrete case that meets them. -/

namespace Sys2Proof.Tests

open Sys2Proof.Machine

/-! ### Helpers -/

/-- The step completed and the state after it satisfies p. -/
def after (o : Outcome) (p : State → Bool) : Bool :=
  match o with
  | .next t => p t
  | _ => false

/-- The step stopped with the fault r. -/
def faults (o : Outcome) (r : Fault) : Bool :=
  match o with
  | .fault q => q == r
  | _ => false

/-- The step was refused for r. -/
def refuses (o : Outcome) (r : Refusal) : Bool :=
  match o with
  | .refused q => q == r
  | _ => false

/-- After reset, with the bytes bs in W_BUF and W_LEN = n. -/
def wired (m : Mode) (bs : List Byte) (n : Wide) : State := ((State.reset.setMode m).setWire 0 bs).setWireLen n

/-- After reset, with a frame of type t and data d in the frame registers. -/
def framed (m : Mode) (t : Half) (d : List Byte) : State :=
  (((State.reset.setMode m).setType t).setSize (BitVec.ofNat 16 d.length)).setData 0 d

/-- The same with another WIRE_CAP. -/
def framedAt (cap : Nat) (m : Mode) (t : Half) (d : List Byte) : State := { framed m t d with config := ⟨cap⟩ }

/-- R73: the wire bytes of an empty Connect frame under BootROM (V-ENC-1). -/
def emptyConnect : List Byte := [0x7E#8, 0#8, 0#8, 0#8, 0#8, 0#8, 0#8, 0x7E#8]

/-- V-ENC-5: type 2, data [7E], under FDL. -/
def escapedFdl : List Byte := [0x7E#8, 0#8, 2#8, 0#8, 1#8, 0x7D#8, 0x5E#8, 0xFF#8, 0x7D#8, 0x5E#8, 0x7E#8]

/-! ### WellFormed: the terms it refuses -/

/-- R76: 0x7D is an escape prefix, no literal. -/
theorem test_wf_refuses_literal_escape : (Instr.wireLit 0x7D#8).wf = false := by decide
/-- R140: 0x41 is not sent as an escape pair. -/
theorem test_wf_refuses_needless_pair : (Instr.encEscape 0x41#8).wf = false := by decide
theorem test_wf_accepts_raw_delimiter_as_literal : (Instr.wireLit 0x7E#8).wf = true := by decide

/-! ### Decoding: a word of every row, written from R78, R74, R76 and R140 -/

/-- 0001 0000000000000000000000000001 -/
theorem test_decode_setmode : decodeTableWord 32 0b00010000000000000000000000000001 = some (.setmode 1#1) := by decide
/-- 0010 0000000000000000000000000000 -/
theorem test_decode_csum : decodeTableWord 32 0b00100000000000000000000000000000 = some (.csum) := by decide
/-- 0011 0000000000000000000000000000 -/
theorem test_decode_encode : decodeTableWord 32 0b00110000000000000000000000000000 = some (.encode) := by decide
/-- 0100 0000000000000000000000000000 -/
theorem test_decode_decode : decodeTableWord 32 0b01000000000000000000000000000000 = some (.decode) := by decide
/-- 0101 000000000000 1000000000000001 -/
theorem test_decode_wrtype : decodeTableWord 32 0b01010000000000001000000000000001 = some (.wrtype 0x8001#16) := by decide
/-- 0110 000000000000 0000000100000010 -/
theorem test_decode_wrsize : decodeTableWord 32 0b01100000000000000000000100000010 = some (.wrsize 0x0102#16) := by decide
/-- 0111 0000 1111111111111110 01111110 -/
theorem test_decode_wrdata : decodeTableWord 32 0b01110000111111111111111001111110 = some (.wrdata 0xFFFE#16 0x7E#8) := by decide
/-- 1000 0000000000 100000000000001110 -/
theorem test_decode_wrwlen : decodeTableWord 32 0b10000000000000100000000000001110 = some (.wrwlen 0x2000E#18) := by decide
/-- 1001 00 100000000000000001 01011010 -/
theorem test_decode_wrwbuf : decodeTableWord 32 0b10010010000000000000000101011010 = some (.wrwbuf 0x20001#18 0x5A#8) := by decide
/-- 1010 000000000000000000000000 0101 -/
theorem test_decode_rdreg : decodeTableWord 32 0b10100000000000000000000000000101 = some (.rdreg 5#4) := by decide
/-- 1011 0000 0000000100000010 00000000 -/
theorem test_decode_rddata : decodeTableWord 32 0b10110000000000010000001000000000 = some (.rddata 0x0102#16) := by decide
/-- 1100 00 100000000000000111 00000000 -/
theorem test_decode_rdwbuf : decodeTableWord 32 0b11000010000000000000011100000000 = some (.rdwbuf 0x20007#18) := by decide
/-- 0000 1000000000000000000000000001 -/
theorem test_decode_reservedOp0 : decodeTableWord 32 0b00001000000000000000000000000001 = some (.reservedOp0 0x8000001#28) := by decide
/-- 1101 1000000000000000000000000001 -/
theorem test_decode_reservedOpD : decodeTableWord 32 0b11011000000000000000000000000001 = some (.reservedOpD 0x8000001#28) := by decide
/-- 1110 1000000000000000000000000001 -/
theorem test_decode_reservedOpE : decodeTableWord 32 0b11101000000000000000000000000001 = some (.reservedOpE 0x8000001#28) := by decide
/-- 1111 1000000000000000000000000001 -/
theorem test_decode_reservedOpF : decodeTableWord 32 0b11111000000000000000000000000001 = some (.reservedOpF 0x8000001#28) := by decide
theorem test_decode_typeConnect : decodeTableWord 16 0x0000 = some .typeConnect := by decide
theorem test_decode_typeStartDataTransfer : decodeTableWord 16 0x0001 = some .typeStartDataTransfer := by decide
theorem test_decode_typeDataTransfer : decodeTableWord 16 0x0002 = some .typeDataTransfer := by decide
theorem test_decode_typeEndDataTransfer : decodeTableWord 16 0x0003 = some .typeEndDataTransfer := by decide
theorem test_decode_typeExecuteData : decodeTableWord 16 0x0004 = some .typeExecuteData := by decide
theorem test_decode_typeReset : decodeTableWord 16 0x0005 = some .typeReset := by decide
theorem test_decode_typeReadFlash : decodeTableWord 16 0x0006 = some .typeReadFlash := by decide
theorem test_decode_typeEraseFlash : decodeTableWord 16 0x000A = some .typeEraseFlash := by decide
theorem test_decode_typeReadFlashType : decodeTableWord 16 0x000C = some .typeReadFlashType := by decide
theorem test_decode_typeReadFlashInfo : decodeTableWord 16 0x000D = some .typeReadFlashInfo := by decide
theorem test_decode_typeEnableFlash : decodeTableWord 16 0x001B = some .typeEnableFlash := by decide
theorem test_decode_typeAcknowledgement : decodeTableWord 16 0x0080 = some .typeAcknowledgement := by decide
theorem test_decode_typeBanner : decodeTableWord 16 0x0081 = some .typeBanner := by decide
theorem test_decode_typeDestinationError : decodeTableWord 16 0x0089 = some .typeDestinationError := by decide
theorem test_decode_typeSizeError : decodeTableWord 16 0x008A = some .typeSizeError := by decide
theorem test_decode_typeVerificationError : decodeTableWord 16 0x008B = some .typeVerificationError := by decide
theorem test_decode_typeReadFlashResponse : decodeTableWord 16 0x0093 = some .typeReadFlashResponse := by decide
theorem test_decode_typeVerificationFailure : decodeTableWord 16 0x00A6 = some .typeVerificationFailure := by decide
theorem test_decode_wireDelim : decodeTableWord 8 0b01111110 = some .wireDelim := by decide
theorem test_decode_wireEsc : decodeTableWord 8 0b01111101 = some .wireEsc := by decide
theorem test_decode_wireLit : decodeTableWord 8 0b01000001 = some (.wireLit 0x41#8) := by decide
theorem test_decode_encEscape : decodeTableWord 16 0b0111110101011110 = some (.encEscape 0x7E#8) := by decide
/-- V-HOST-3, V-HOST-12: a must-be-zero bit is set. -/
theorem test_decode_reserved_bits :
    decode (.command 0x10000002#32) = .error .reservedBit ∧ decode (.command 0x30000001#32) = .error .reservedBit ∧
    decode (.command 0xB0000001#32) = .error .reservedBit ∧ decode (.command 0x94000000#32) = .error .reservedBit := by
  refine ⟨?_, ?_, ?_, ?_⟩ <;> rfl
/-- R75: 0x0007 has no label. -/
theorem test_decode_unlabelled_type : decode (.frameType 7#16) = .error .unlabelledType := by rfl

/-! ### The pure functions: values the spec prints -/

/-- V-CRC-3, V-CRC-4, V-CRC-6, V-CRC-10. -/
theorem test_bootRom_values :
    bootRom 3#16 0#16 [] = 0x5950#16 ∧ bootRom 2#16 1#16 [0x7E#8] = 0x4100#16 ∧
    bootRom 2#16 1#16 [0x1B#8] = 0x7D03#16 ∧ bootRom 2#16 3#16 [0x7D#8, 0x7E#8, 0x7D#8] = 0x0EA9#16 := by decide
/-- V-CRC-2: the XMODEM check value. -/
theorem test_crc_check_value :
    crc [0x31#8, 0x32#8, 0x33#8, 0x34#8, 0x35#8, 0x36#8, 0x37#8, 0x38#8, 0x39#8] = 0x31C3#16 := by decide
/-- V-FDL-1, V-FDL-2, V-FDL-4, V-FDL-6, V-FDL-7. -/
theorem test_fdl_values :
    fdl 0#16 0#16 [] = 0xFFFF#16 ∧ fdl 2#16 1#16 [1#8] = 0xFFFB#16 ∧ fdl 2#16 3#16 [1#8, 2#8, 3#8] = 0xFEF5#16 ∧
    fdl 0xFFFF#16 2#16 [0xFF#8, 0xFE#8] = 0xFFFE#16 ∧ fdl 0xFFFF#16 0#16 [] = 0#16 := by decide
/-- V-ESC-5. -/
theorem test_escapeSeq :
    escapeSeq [0x7E#8, 0x7D#8, 0#8, 0x7E#8] = [0x7D#8, 0x5E#8, 0x7D#8, 0x5D#8, 0#8, 0x7D#8, 0x5E#8] := by decide
/-- V-ENC-11. -/
theorem test_wireBytes_escaped_header :
    wireBytes ⟨0x7E7D#16, 2#16, [0x7E#8, 0x7E#8]⟩ 0x23AC#16 =
      [0x7E#8, 0x7D#8, 0x5E#8, 0x7D#8, 0x5D#8, 0#8, 2#8, 0x7D#8, 0x5E#8, 0x7D#8, 0x5E#8, 0x23#8, 0xAC#8, 0x7E#8] := by
  decide

/-! ### One step of each instruction -/

/-- V-HOST-4. -/
theorem test_setmode : after (exec (.setmode 1#1) .reset) (fun t => t.mode == .fdl) = true := by decide
/-- R121: t = 0, s = 0 under FDL. -/
theorem test_csum :
    after (exec .csum (framed .fdl 0#16 [])) (fun t => t.fCsum == .written 0xFFFF#16 && t.status == 0#4) = true := by
  decide
/-- V-ENC-5. -/
theorem test_encode :
    after (exec .encode (framed .fdl 2#16 [0x7E#8])) (fun t => t.wBuf.readFrom 0 11 == some escapedFdl &&
      t.wLen == .written 11#18 && t.fCsum == .written 0xFF7E#16 && t.status == 0#4) = true := by decide
/-- V-ENC-14. -/
theorem test_encode_allocation_failure :
    after (exec .encode (framedAt 16 .bootRom 2#16 [1#8])) (fun t => t.status == 5#4 && t.wLen == State.reset.wLen &&
      t.fCsum == State.reset.fCsum) = true := by decide
/-- V-DEC-17. -/
theorem test_decode_ok :
    after (exec .decode (wired .fdl escapedFdl 11#18)) (fun t => t.fType == .written 2#16 &&
      t.fSize == .written 1#16 && t.fData == [(0, 0x7E#8)] && t.fCsum == .written 0xFF7E#16 && t.status == 0#4) = true := by
  decide
/-- V-DEC-10: the data runs out after the size check passes. -/
theorem test_decode_underflow :
    after (exec .decode (wired .bootRom [0x7E#8, 0x7D#8, 0x5E#8, 0x7D#8, 0x5E#8, 0x7D#8, 0x20#8, 0x7D#8, 0x22#8, 0x11#8]
      10#18)) (fun t => t.status == 3#4 && t.fType == State.reset.fType) = true := by decide
/-- V-HOST-13. -/
theorem test_wrtype : after (exec (.wrtype 0x80#16) .reset) (fun t => t.fType == .written 0x80#16) = true := by decide
theorem test_wrsize :
    after (exec (.wrsize 4#16) .reset) (fun t => t.fSize == .written 4#16 && t.fType == State.reset.fType) = true := by decide
/-- V-HOST-7, V-HOST-6. -/
theorem test_wrdata :
    after (exec (.wrdata 65534#16 0#8) .reset) (fun t => t.fData == [(65534, 0#8)]) = true ∧
    refuses (exec (.wrdata 65535#16 0#8) .reset) .addressOutOfRange = true := by decide
/-- V-HOST-9, V-HOST-8. -/
theorem test_wrwlen :
    after (exec (.wrwlen 131086#18) .reset) (fun t => t.wLen == .written 131086#18) = true ∧
    refuses (exec (.wrwlen 131088#18) .reset) .addressOutOfRange = true := by decide
/-- R214: bytes are kept by address, in order, and a second write replaces the first. -/
theorem test_wrwbuf :
    after (exec (.wrwbuf 1#18 0x81#8) (wired .bootRom [0x7E#8, 0#8, 1#8] 3#18))
      (fun t => t.wBuf == [(0, 0x7E#8), (1, 0x81#8), (2, 1#8)]) = true ∧
    refuses (exec (.wrwbuf 131086#18 0#8) .reset) .addressOutOfRange = true := by decide
/-- V-HOST-11, V-HOST-10 (on the table of R270 as it stands, log 2), V-HOST-5. -/
theorem test_rdreg :
    after (exec (.rdreg 0#4) .reset) (fun t => t.responses == [0#32]) = true ∧
    faults (exec (.rdreg 2#4) (.resetUnwritten .recommended)) .unwrittenRead = true ∧
    refuses (exec (.rdreg 6#4) .reset) .reservedEncoding = true := by decide
theorem test_rdreg_wlen :
    after (exec (.rdreg 5#4) (wired .bootRom [] 0x3FFFF#18)) (fun t => t.responses == [0x3FFFF#32]) = true := by decide
/-- R217's example. -/
theorem test_rddata :
    after (exec (.rddata 0#16) (framed .bootRom 2#16 [0x7E#8])) (fun t => t.responses == [0x7E#32]) = true ∧
    faults (exec (.rddata 1#16) (framed .bootRom 2#16 [0x7E#8])) .unwrittenRead = true := by decide
/-- R218's example. -/
theorem test_rdwbuf :
    after (exec (.rdwbuf 7#18) (wired .bootRom emptyConnect 8#18)) (fun t => t.responses == [0x7E#32]) = true := by decide
/-- V-HOST-1, V-HOST-2. -/
theorem test_reserved_opcodes :
    refuses (step (State.reset.withFetchWord 32 0)) .reservedEncoding = true ∧
    refuses (step (State.reset.withFetchWord 32 0xD0000000)) .reservedEncoding = true ∧
    refuses (step (State.reset.withFetchWord 32 0xE0000000)) .reservedEncoding = true ∧
    refuses (step (State.reset.withFetchWord 32 0xF0000000)) .reservedEncoding = true := by decide
/-- R183, R160: the type field of a SizeError frame, sent and taken. -/
theorem test_type_item :
    after (step (State.reset.withFetchWord 16 0x008A))
      (fun t => t.work == .encoding ⟨0#16, [], [0x7E#8, 0#8, 0x8A#8]⟩) = true ∧
    after (exec .typeSizeError (State.reset.setWork (.decoding ⟨.fdl, 9, 1, false, []⟩)))
      (fun t => t.work == .decoding ⟨.fdl, 9, 3, false, [0#8, 0x8A#8]⟩) = true := by decide
/-- R76. -/
theorem test_wire_delim :
    after (step (State.reset.withFetchWord 8 0x7E)) (fun t => t.work == .decoding ⟨.bootRom, 8, 1, false, []⟩) = true := by
  decide
/-- R143, V-ESC-8: 7D 7E reads as 5E. -/
theorem test_wire_esc :
    after (step (State.reset.withFetchWord 8 0x7D)) (fun t => t.work == .decoding ⟨.bootRom, 8, 2, true, []⟩) = true ∧
    after (exec .wireDelim (State.reset.setWork (.decoding ⟨.bootRom, 8, 2, true, []⟩)))
      (fun t => t.work == .decoding ⟨.bootRom, 8, 3, false, [0x5E#8]⟩) = true := by decide
/-- R143, R182: a literal, and one where the leading delimiter must stand. -/
theorem test_wire_lit :
    after (step (State.reset.withFetchWord 8 0x41)) (fun t => t.work == .decoding ⟨.bootRom, 8, 2, false, [0x41#8]⟩) = true ∧
    after (exec (.wireLit 0x41#8) (State.reset.setWork (.decoding ⟨.bootRom, 8, 0, false, []⟩)))
      (fun t => t.status == 2#4 && t.work == .idle) = true := by decide
/-- R140, V-ESC-1. -/
theorem test_enc_escape :
    after (step (State.reset.withFetchWord 16 0x7D5E))
      (fun t => t.work == .encoding ⟨0#16, [], [0x7E#8, 0x7D#8, 0x5E#8]⟩) = true := by decide
/-- V-DEC-15, 90_conflicts.md C1: a flip that makes a 0x7D can go undetected under FDL. -/
theorem test_undetected_flip :
    (decodeFrame .fdl (wired .fdl [0x7E#8, 0#8, 2#8, 0#8, 3#8, 0x5D#8, 0x7D#8, 0x7D#8, 0x5D#8, 0xA2#8, 0x40#8, 0x7E#8]
      12#18).wBuf 12).toOption.map (fun r => (r.frame.data, r.csum)) = some ([0x5D#8, 0x5D#8, 0x5D#8], 0xA240#16) := by
  decide
/-- R83, R84: lines of assembly. -/
theorem test_assemble :
    assemble ["; set up", "SETMODE fdl", "LOADFRAME 0x1, [0x80, 1]", "LOADWIRE []", "RDREG csum", "WRDATA 65534, 0x7E"] =
      some [.setmode 1#1, .wrtype 1#16, .wrsize 2#16, .wrdata 0#16 0x80#8, .wrdata 1#16 1#8, .wrwlen 0#18, .rdreg 4#4,
        .wrdata 65534#16 0x7E#8] := by decide
theorem test_assemble_refuses : assemble ["WRTYPE 65536"] = none ∧ assemble ["NOP"] = none := by decide

/-! ### For every statement with hypotheses, cases that meet them, each clause at its boundary -/

theorem reset_ready : State.reset.Ready := ⟨rfl, rfl, rfl⟩

theorem framed_ready (m : Mode) (t : Half) (d : List Byte) : (framed m t d).Ready := ⟨rfl, rfl, rfl⟩

theorem wired_ready (m : Mode) (bs : List Byte) (n : Wide) : (wired m bs n).Ready := ⟨rfl, rfl, rfl⟩

theorem reset_inv : State.reset.Inv where
  config := by decide
  status := by decide
  wLen := by intro v h; cases h; decide
  dataWf := by decide
  dataBelow := by intro c h; cases h
  wireWf := by decide
  wireBelow := by intro c h; cases h
  work := trivial

/-- DecodeOfEncodeIsIdentity: the two checked rows at every byte the check lets through at a boundary. -/
theorem witness_wf : (Instr.wireLit 0x7E#8).wf = true ∧ (Instr.wireLit 0x7C#8).wf = true ∧
    (Instr.encEscape 0x7E#8).wf = true ∧ (Instr.encEscape 0x7D#8).wf = true ∧ (Instr.rdreg 15#4).wf = true := by decide

/-- EveryCodeHasOneMeaning. -/
theorem witness_decoded : decode (.command 0xC3FFFF00#32) = .ok (.rdwbuf 0x3FFFF#18) := by rfl

/-- ReservedWordsAreRefused: reserved words next to words that are not. -/
theorem witness_reservedWord :
    (∀ w, (State.reset.setPending [w]).Ready ∧ (State.reset.setPending [w]).pending = [w]) ∧
    reservedWord 0x10000002#32 = true ∧ reservedWord 0x10000001#32 = false ∧ reservedWord 0xA0000006#32 = true ∧
    reservedWord 0xA0000005#32 = false ∧ reservedWord 0x0FFFFFFF#32 = true ∧ reservedWord 0xD0000000#32 = true := by
  refine ⟨fun w => ⟨⟨rfl, rfl, rfl⟩, rfl⟩, ?_⟩
  decide

/-- StepRunsTheOldestCommand: a command, a reserved word, no word. -/
theorem witness_step :
    (State.reset.setPending [0x10000001#32]).Ready ∧ decode (.command 0x10000001#32) = .ok (.setmode 1#1) ∧
    decode (.command 0x10000002#32) = .error .reservedBit ∧ State.reset.Ready ∧ State.reset.pending = [] :=
  ⟨⟨rfl, rfl, rfl⟩, rfl, rfl, reset_ready, rfl⟩

/-- A DECODE in progress on emptyConnect at cursor pos with the field bytes q taken. -/
def decoding (pos : Nat) (q : List Byte) : State :=
  (wired .bootRom emptyConnect 8#18).setWork (.decoding ⟨.bootRom, 8, pos, false, q⟩)

/-- StepRunsTheNextItem: the leading position, the field region, the trailing position, an unwritten byte, an ENCODE. -/
theorem witness_items :
    (decoding 0 []).wBuf.read 0 = some 0x7E#8 ∧ (Decoder.mk .bootRom 8 0 false []).place = .leading ∧
    (decoding 1 []).wBuf.read 1 = some 0#8 ∧ (Decoder.mk .bootRom 8 1 false []).place = .inField .hdr ∧
    (decoding 7 [0#8, 0#8, 0#8, 0#8, 0#8, 0#8]).wBuf.read 7 = some 0x7E#8 ∧
    (Decoder.mk .bootRom 8 7 false [0#8, 0#8, 0#8, 0#8, 0#8, 0#8]).place = .trailing ∧
    (decoding 8 []).wBuf.read 8 = none ∧ (decoding 0 []).faultMark = false ∧ (decoding 0 []).refusalMark = false ∧
    (State.reset.setWork (.encoding ⟨0#16, [], []⟩)).work = .encoding ⟨0#16, [], []⟩ := by decide

/-- PlacedRowIsFetched: a row of each width. -/
theorem witness_rows : decodeTableWord 32 0xA0000000 = some (.rdreg 0#4) ∧
    decodeTableWord 16 0x00A6 = some .typeVerificationFailure ∧ decodeTableWord 16 0x7D5D = some (.encEscape 0x7D#8) ∧
    decodeTableWord 8 0x7E = some .wireDelim ∧ decodeTableWord 8 0xFF = some (.wireLit 0xFF#8) := by decide

/-- ResetLeavesWhatTheTableSays, the clause on marks. -/
theorem witness_marks : (State.reset.setFaultMark true).faultMark = true ∧
    (State.reset.setRefusalMark true).refusalMark = true := by decide

/-- FaultStopsTheBlock: CSUM on the table of R270; V-DEC-22. -/
theorem witness_fault : step ((State.resetUnwritten .recommended).setPending [0x20000000#32]) = .fault .unwrittenRead ∧
    step ((wired .bootRom [0x7E#8] 8#18).setPending [0x40000000#32]) = .fault .unwrittenRead := by
  refine ⟨?_, ?_⟩ <;> rfl

/-- RefusalStopsTheBlock: the two refusals of R247. -/
theorem witness_refusal : step (State.reset.setPending [0#32]) = .refused .reservedEncoding ∧
    step (State.reset.setPending [0x70FFFF00#32]) = .refused .addressOutOfRange ∧
    (State.reset.setPending [0#32]).faultMark = false := by
  refine ⟨?_, ?_, ?_⟩ <;> rfl

/-- ResetMeetsTheInvariant: both ends of R6's range. -/
theorem witness_capacities : (Config.mk 16).Ok ∧ (Config.mk 262143).Ok ∧ Config.recommended.Ok := by decide

/-- EveryStepKeepsTheInvariant, EveryStepKeepsTheBlockReady. -/
theorem witness_invariant_step : State.reset.Inv ∧ State.reset.Ready ∧ step State.reset = .next State.reset :=
  ⟨reset_inv, reset_ready, rfl⟩

/-- NoInstructionChangesTheParameter, OnlySetmodeWritesMode, OnlyCodecCommandsWriteStatus, OnlyReadCommandsRespond: an
instruction that meets all their premises, a read, and a wire item. -/
theorem witness_completing :
    exec (.wrsize 3#16) .reset = .next (State.reset.setSize 3#16) ∧ (∀ m, Instr.wrsize 3#16 ≠ .setmode m) ∧
    State.reset.work = .idle ∧ (Instr.wrsize 3#16).isCodec = false ∧ (Instr.wrsize 3#16).isRead = false ∧
    exec (.rdreg 1#4) .reset = .next (State.reset.respond 0#32) ∧ (Instr.rdreg 1#4).isRead = true ∧
    exec .wireDelim (decoding 0 []) = .next (decoding 1 []) :=
  ⟨rfl, (by intro m h; cases h), rfl, rfl, rfl, rfl, rfl, rfl⟩

/-- SetmodeSelectsTheChecksum: a reserved word next to a spelled one, and the active mode. -/
theorem witness_setmode : (0x10000002#32 : Word).toNat / 2 ^ 28 = 1 ∧ (0x10000002#32 : Word).toNat / 2 % 2 ^ 27 ≠ 0 ∧
    State.reset.mode.bit = 0#1 ∧ (State.reset.setMode .fdl).mode.bit = 1#1 := by decide

/-- BootRomRunsTheRegister. -/
theorem witness_modes : Mode.bootRom.bit = 0#1 ∧ Mode.fdl.bit = 1#1 := by decide

/-- FdlHasTheClosedForm: data of length 0, odd and even. -/
theorem witness_lengths : ([] : List Byte).length ≤ 65535 ∧ [1#8].length ≤ 65535 ∧ [1#8, 2#8].length ≤ 65535 := by decide

/-- CsumComputesTheChecksum, EncodeWritesTheFrame at WIRE_CAP = 2*8 (V-ENC-15), EncodeFailsOnlyForCapacity (V-ENC-14,
V-ENC-16). -/
theorem witness_frames :
    (framedAt 16 .bootRom 0#16 []).frame? = some ⟨0#16, 0#16, []⟩ ∧ (framedAt 16 .bootRom 0#16 []).config.Ok ∧
    2 * (8 + (0#16 : Half).toNat) ≤ (framedAt 16 .bootRom 0#16 []).config.wireCap ∧
    (framedAt 16 .bootRom 2#16 [1#8]).frame? = some ⟨2#16, 1#16, [1#8]⟩ ∧
    (framedAt 16 .bootRom 2#16 [1#8]).config.wireCap < 2 * (8 + (1#16 : Half).toNat) ∧
    131086 ≤ (framed .fdl 2#16 [1#8]).config.wireCap ∧ (State.resetUnwritten .recommended).frame? = none := by decide

/-- FrameIdentityIsTypeSizeData: another checksum, and another byte above F_SIZE. -/
theorem witness_identity :
    (((framed .fdl 2#16 [1#8]).setCsum 9#16).setData 1 [7#8]).fType = (framed .fdl 2#16 [1#8]).fType ∧
    (((framed .fdl 2#16 [1#8]).setCsum 9#16).setData 1 [7#8]).fSize = (framed .fdl 2#16 [1#8]).fSize ∧
    (∀ z, (framed .fdl 2#16 [1#8]).fSize = .written z → ∀ k < z.toNat,
      (((framed .fdl 2#16 [1#8]).setCsum 9#16).setData 1 [7#8]).fData.read k = (framed .fdl 2#16 [1#8]).fData.read k) := by
  refine ⟨rfl, rfl, fun z hz k hk => ?_⟩
  obtain rfl : 1#16 = z := Reg.written.inj hz
  obtain rfl : k = 0 := by simpa using hk
  rfl

/-- EscapeOfEveryByte. -/
theorem witness_bytes : (0x7D#8 : Byte) ≠ 0x7E#8 ∧ (0x7C#8 : Byte) ≠ 0x7D#8 ∧ (0x7C#8 : Byte) ≠ 0x7E#8 := by decide

/-- ReadFieldReadsEverySpelling: W_BUF = 7E 7D 20, lengths at the bounds. -/
theorem witness_readField :
    Memory.read [(0, 0x7E#8), (1, 0x7D#8), (2, 0x20#8)] 0 = some 0x7E#8 ∧
    Memory.read [(0, 0x7E#8), (1, 0x7D#8), (2, 0x20#8)] 1 = some 0x7D#8 ∧
    Memory.read [(0, 0x7E#8), (1, 0x7D#8), (2, 0x20#8)] 2 = some 0x20#8 ∧
    Memory.read [(0, 0x7E#8), (1, 0x7D#8), (2, 0x20#8)] 3 = none ∧
    Memory.read [(0, 0x7E#8), (1, 0x7D#8)] 2 = none := by decide

/-- StuffingInvertsExactly, DecodeInvertsEncodeFrame, EncodeThenDecodeKeepsTheFrame: V-ENC-5. -/
theorem witness_round_trip :
    Holds (wired .fdl escapedFdl 11#18).wBuf 0 escapedFdl ∧
    Holds (wired .fdl escapedFdl 11#18).wBuf 5 (escapeSeq [0x7E#8]) ∧ 5 + (escapeSeq [0x7E#8]).length ≤ 11 ∧
    encodeFrame .recommended .fdl ⟨2#16, 1#16, [0x7E#8]⟩ = .ok (escapedFdl, 0xFF7E#16) ∧
    (framed .fdl 2#16 [0x7E#8]).frame? = some ⟨2#16, 1#16, [0x7E#8]⟩ ∧ (framed .fdl 2#16 [0x7E#8]).config.Ok ∧
    after (exec .encode (framed .fdl 2#16 [0x7E#8])) (fun t => t.status == 0#4) = true := by
  refine ⟨?_, ?_, ?_, rfl, rfl, ?_, ?_⟩
  · exact Memory.holds_writeFrom _ _ _
  · intro j hj
    have h : j = 0 ∨ j = 1 := by have : j < 2 := hj; omega
    rcases h with rfl | rfl <;> rfl
  all_goals decide

/-- CanonicalLengthCountsEscapes and ModesDifferOnlyInTheChecksum: V-ENC-3 against V-ENC-5. -/
theorem witness_modes_differ :
    (Frame.mk 2#16 1#16 [0x7E#8]).data.length = (1#16 : Half).toNat ∧
    encodeFrame .recommended .bootRom ⟨2#16, 1#16, [0x7E#8]⟩ =
      .ok ([0x7E#8, 0#8, 2#8, 0#8, 1#8, 0x7D#8, 0x5E#8, 0x41#8, 0#8, 0x7E#8], 0x4100#16) ∧
    encodeFrame .recommended .fdl ⟨2#16, 1#16, [0x7E#8]⟩ = .ok (escapedFdl, 0xFF7E#16) := by
  refine ⟨by decide, ?_, ?_⟩ <;> rfl

/-- ShortBuffersAreTooShort and DecodeCompletesOnAWrittenBuffer: lengths 7, 8 and unwritten (V-DEC-2, V-DEC-1). -/
theorem witness_short :
    (wired .bootRom emptyConnect 7#18).wLen = .written 7#18 ∧ (7#18 : Wide).toNat < 8 ∧
    (wired .bootRom emptyConnect 8#18).wLen = .written 8#18 ∧
    (∀ k < (8#18 : Wide).toNat, (wired .bootRom emptyConnect 8#18).wBuf.read k ≠ none) ∧
    (State.resetUnwritten .recommended).wLen = .unwritten := by
  refine ⟨rfl, by decide, rfl, ?_, rfl⟩
  decide

/-- FirstFailingCheckIsReported, written bytes: V-DEC-3, V-DEC-14, V-DEC-4, V-DEC-10, V-DEC-11, V-DEC-6, V-DEC-12, V-DEC-5, V-DEC-1, one a
clause. -/
theorem witness_checks :
    (wired .bootRom [0#8] 8#18).wBuf.read 0 = some 0#8 ∧
    readFields .hdr (wired .bootRom [0x7E#8, 0x7D#8, 0x5E#8, 0x7D#8, 0x5E#8, 0x7D#8, 0x5E#8, 0x7D#8] 8#18).wBuf 8 4 1 =
      .error (.error .framingError) ∧
    readFields .hdr (wired .bootRom [0x7E#8, 0#8, 2#8, 0#8, 5#8] 10#18).wBuf 10 4 1 =
      .ok ([0#8, 2#8, 0#8, 5#8], 5) ∧ 10 - 8 < (be16 0#8 5#8).toNat ∧
    readFields .data (wired .bootRom [0x7E#8, 0x7D#8, 0x5E#8, 0x7D#8, 0x5E#8, 0x7D#8, 0x20#8, 0x7D#8, 0x22#8, 0x11#8]
      10#18).wBuf 10 2 9 = .error (.error .dataUnderflow) ∧
    readFields .data (wired .bootRom [0x7E#8, 0#8, 2#8, 0#8, 2#8, 0x7D#8, 0x5E#8, 0x7D#8, 0x5E#8, 0x7E#8] 10#18).wBuf
      10 2 5 = .ok ([0x7E#8, 0x7E#8], 9) ∧ (be16 0#8 2#8).toNat ≤ 10 - 8 ∧
    readFields .csum (wired .bootRom [0x7E#8, 0#8, 2#8, 0#8, 2#8, 0x7D#8, 0x5E#8, 0x7D#8, 0x5E#8, 0x7E#8] 10#18).wBuf
      10 2 9 = .error (.error .framingError) ∧
    readFields .csum (wired .bootRom emptyConnect 8#18).wBuf 8 2 5 = .ok ([0#8, 0#8], 7) ∧
    be16 0#8 0#8 ≠ checksum .fdl (be16 0#8 0#8) (be16 0#8 0#8) [] ∧
    be16 0#8 0#8 = checksum .bootRom (be16 0#8 0#8) (be16 0#8 0#8) [] ∧
    readFields .csum (wired .bootRom [0x7E#8, 0x7D#8, 0x20#8, 0#8, 0#8, 0#8, 0#8, 0#8] 8#18).wBuf 8 2 6 =
      .ok ([0#8, 0#8], 8) ∧
    (wired .bootRom [0x7E#8, 0#8, 0#8, 0#8, 0#8, 0#8, 0#8, 0x7F#8] 8#18).wBuf.read 7 = some 0x7F#8 ∧
    (wired .bootRom emptyConnect 8#18).wBuf.read 7 = some 0x7E#8 := by
  refine ⟨rfl, rfl, rfl, by decide, rfl, rfl, by decide, rfl, rfl, by decide, by decide, rfl, rfl, rfl⟩

/-- AcceptedFramesAreValid, DecodeCommitsTheFrame, TrailingBytesAreIgnored, DecodeReadsBelowTheLength: V-DEC-1, and V-DEC-9
with bytes after the frame. -/
theorem witness_accepted :
    (wired .bootRom emptyConnect 8#18).wLen = .written 8#18 ∧
    decodeFrame .bootRom (wired .bootRom emptyConnect 8#18).wBuf (8#18 : Wide).toNat = .ok ⟨⟨0#16, 0#16, []⟩, 0#16, 8⟩ ∧
    (∀ k < 8, (wired .bootRom (emptyConnect ++ [0xAA#8, 0xBB#8]) 10#18).wBuf.read k =
      (wired .bootRom emptyConnect 8#18).wBuf.read k) ∧ 8 ≤ 10 := by
  refine ⟨rfl, rfl, ?_, by decide⟩
  decide

/-- FailedDecodeWritesOnlyStatus: V-DEC-6. -/
theorem witness_failed_decode :
    exec .decode (wired .fdl emptyConnect 8#18) = .next ((wired .fdl emptyConnect 8#18).complete 4#4) ∧
    ((wired .fdl emptyConnect 8#18).complete 4#4).status ≠ 0#4 := by
  refine ⟨rfl, ?_⟩
  decide

/-- DecodeCompletesOnAWrittenBuffer and FirstFailingCheckIsReported, unwritten bytes: byte 0, a header byte (V-DEC-22), and
the trailing byte of a frame that is accepted when it is there. -/
theorem witness_unwritten :
    (wired .bootRom [] 8#18).wLen = .written 8#18 ∧ 8 ≤ (8#18 : Wide).toNat ∧ (wired .bootRom [] 8#18).wBuf.read 0 = none ∧
    readFields .hdr (wired .bootRom [0x7E#8] 8#18).wBuf 8 4 1 = .error .unwritten ∧
    decodeFrame .bootRom (wired .bootRom [0x7E#8] 8#18).wBuf 8 = .error .unwritten ∧
    decodeFrame .bootRom (wired .bootRom emptyConnect 8#18).wBuf 8 = .ok ⟨⟨0#16, 0#16, []⟩, 0#16, 8⟩ ∧
    (∀ j < 8, (wired .bootRom (emptyConnect.take 7) 8#18).wBuf.read j = none ∨
      (wired .bootRom (emptyConnect.take 7) 8#18).wBuf.read j = (wired .bootRom emptyConnect 8#18).wBuf.read j) ∧ 7 < 8 ∧
    readFields .csum (wired .bootRom (emptyConnect.take 7) 8#18).wBuf 8 2 5 = .ok ([0#8, 0#8], 7) ∧
    (wired .bootRom (emptyConnect.take 7) 8#18).wBuf.read 7 = none := by
  refine ⟨rfl, by decide, rfl, rfl, rfl, rfl, ?_, by decide, rfl, rfl⟩
  decide

/-- FieldsRunOutByPhase: W_BUF = 41 7D and length 2, which runs out in the second field byte, in each phase; an unwritten
byte; a larger length. -/
theorem witness_run_out :
    CodecError.dataUnderflow = (if Phase.data = .data then .dataUnderflow else .framingError) ∧
    CodecError.framingError = (if Phase.csum = .data then .dataUnderflow else .framingError) ∧
    readFields .data (wired .fdl [0x41#8, 0x7D#8] 2#18).wBuf 2 2 0 = .error (.error .dataUnderflow) ∧
    readFields .csum (wired .fdl [0x41#8, 0x7D#8] 2#18).wBuf 2 2 0 = .error (.error .framingError) ∧
    readFields .data (wired .fdl [0x41#8, 0x7D#8] 2#18).wBuf 2 1 0 = .ok ([0x41#8], 1) ∧
    readField .data (wired .fdl [0x41#8, 0x7D#8] 2#18).wBuf 2 1 = .error (.error .dataUnderflow) ∧
    readFields .data (wired .fdl [0x41#8, 0x7D#8] 3#18).wBuf 3 2 0 = .error .unwritten ∧
    (∀ k, 0 ≤ k → k < 2 → (wired .fdl [0x41#8, 0x7D#8] 2#18).wBuf.read k ≠ none) ∧ 2 < 0 + 3 ∧
    (∀ k < 2, (wired .fdl [0x41#8, 0x7D#8, 0x5E#8] 2#18).wBuf.read k =
      (wired .fdl [0x41#8, 0x7D#8] 2#18).wBuf.read k) := by
  refine ⟨rfl, rfl, rfl, rfl, rfl, rfl, rfl, ?_, by decide, ?_⟩
  · intro k _ hk
    have h : k = 0 ∨ k = 1 := by omega
    rcases h with rfl | rfl <;> decide
  · decide

/-- SingleBitFlipsAreCaught: V-DEC-13's frame, type 2, data [01], first and last data byte 5, bit 0. -/
theorem witness_flip :
    (Frame.mk 2#16 1#16 [1#8]).data.length = (1#16 : Half).toNat ∧
    5 = 1 + (escapeSeq (bytesOf 2#16)).length + (escapeSeq (bytesOf 1#16)).length ∧
    5 < 5 + (escapeSeq [1#8]).length ∧
    (wireBytes ⟨2#16, 1#16, [1#8]⟩ ((Frame.mk 2#16 1#16 [1#8]).checksum .bootRom))[5]? = some 1#8 ∧
    (1#8 : Byte) ≠ 0x7D#8 ∧ (1#8 ^^^ (1#8 <<< 0) : Byte) ≠ 0x7D#8 ∧
    Holds (wired .bootRom ((wireBytes ⟨2#16, 1#16, [1#8]⟩ ((Frame.mk 2#16 1#16 [1#8]).checksum .bootRom)).set 5
      (1#8 ^^^ (1#8 <<< 0))) 9#18).wBuf 0 ((wireBytes ⟨2#16, 1#16, [1#8]⟩
        ((Frame.mk 2#16 1#16 [1#8]).checksum .bootRom)).set 5 (1#8 ^^^ (1#8 <<< 0))) := by
  refine ⟨by decide, by decide, by decide, by decide, by decide, by decide, ?_⟩
  exact Memory.holds_writeFrom _ _ _

/-- SingleBitFlipsAreCaught under FDL: V-ENC-5's frame, bit 0 of wire byte 6, the second byte of the escape pair of its
only data byte. -/
theorem witness_flip_in_pair :
    (Frame.mk 2#16 1#16 [0x7E#8]).data.length = (1#16 : Half).toNat ∧
    5 = 1 + (escapeSeq (bytesOf 2#16)).length + (escapeSeq (bytesOf 1#16)).length ∧ 5 ≤ 6 ∧
    6 < 5 + (escapeSeq [0x7E#8]).length ∧
    (wireBytes ⟨2#16, 1#16, [0x7E#8]⟩ ((Frame.mk 2#16 1#16 [0x7E#8]).checksum .fdl))[6]? = some 0x5E#8 ∧
    (0x5E#8 : Byte) ≠ 0x7D#8 ∧ (0x5E#8 ^^^ (1#8 <<< 0) : Byte) ≠ 0x7D#8 ∧
    Holds (wired .fdl ((wireBytes ⟨2#16, 1#16, [0x7E#8]⟩ ((Frame.mk 2#16 1#16 [0x7E#8]).checksum .fdl)).set 6
      (0x5E#8 ^^^ (1#8 <<< 0))) 11#18).wBuf 0 ((wireBytes ⟨2#16, 1#16, [0x7E#8]⟩
        ((Frame.mk 2#16 1#16 [0x7E#8]).checksum .fdl)).set 6 (0x5E#8 ^^^ (1#8 <<< 0))) := by
  refine ⟨by decide, by decide, by decide, by decide, by decide, by decide, by decide, ?_⟩
  exact Memory.holds_writeFrom _ _ _

/-- WrdataStoresOneByte, WrwlenWritesTheLength, WrwbufStoresOneByte, RddataReadsOneByte, RdwbufReadsOneByte: operands on
both sides of each bound, written and unwritten bytes. -/
theorem witness_bounds :
    (65534#16 : Half).toNat < 65535 ∧ (65535#16 : Half).toNat = 65535 ∧
    (131086#18 : Wide).toNat ≤ State.reset.config.wireCap ∧ State.reset.config.wireCap < (131087#18 : Wide).toNat ∧
    (131085#18 : Wide).toNat < State.reset.config.wireCap ∧ State.reset.config.wireCap ≤ (131086#18 : Wide).toNat ∧
    (State.reset.setData 65534 [3#8]).fData.read 65534 = some 3#8 ∧ State.reset.fData.read 65534 = none ∧
    (State.reset.setWire 131085 [3#8]).wBuf.read 131085 = some 3#8 ∧ State.reset.wBuf.read 131085 = none := by decide

/-- RdregReadsTheRegister: every register written, unwritten, and the reserved selectors. -/
theorem witness_rdreg :
    (framed .fdl 2#16 [1#8]).fType = .written 2#16 ∧ (framed .fdl 2#16 [1#8]).fSize = .written 1#16 ∧
    (State.reset.setCsum 9#16).fCsum = .written 9#16 ∧ (State.reset.setWireLen 0#18).wLen = .written 0#18 ∧
    (State.resetUnwritten .recommended).fType = .unwritten ∧ (State.resetUnwritten .recommended).fSize = .unwritten ∧
    (State.resetUnwritten .recommended).fCsum = .unwritten ∧ (State.resetUnwritten .recommended).wLen = .unwritten ∧ 5 < (6#4 : BitVec 4).toNat ∧ 5 < (15#4 : BitVec 4).toNat := by decide

/-- LoadFrameLoadsTheFrame and LoadWireLoadsTheBuffer: the empty list and a full W_BUF of 16 bytes. -/
theorem witness_load : ([] : List Byte).length ≤ 65535 ∧ [1#8].length ≤ 65535 ∧
    (emptyConnect ++ emptyConnect).length ≤ (framedAt 16 .fdl 0#16 []).config.wireCap ∧
    (framedAt 16 .fdl 0#16 []).config.Ok := by decide

/-- DecodeTakesRawBytes: the three raw items; the leading position; an escape prefix, the byte after one, and a literal,
within the length and at its end. -/
theorem witness_taking : Instr.wireDelim.rawByte? = some 0x7E#8 ∧ Instr.wireEsc.rawByte? = some 0x7D#8 ∧
    (Instr.wireLit 0x41#8).rawByte? = some 0x41#8 ∧ (decoding 0 []).work = .decoding ⟨.bootRom, 8, 0, false, []⟩ ∧
    (decoding 6 [0#8, 0#8]).work = .decoding ⟨.bootRom, 8, 6, false, [0#8, 0#8]⟩ ∧ 6 + 1 < 8 ∧ 8 ≤ 7 + 1 ∧
    [0#8, 0#8].length < 4 ∧ (decoding 7 [0#8, 0#8]).work = .decoding ⟨.bootRom, 8, 7, false, [0#8, 0#8]⟩ ∧
    ((decoding 6 []).setWork (.decoding ⟨.bootRom, 8, 6, true, []⟩)).work = .decoding ⟨.bootRom, 8, 6, true, []⟩ := by decide

/-- DecodeTakesRawBytes, the places where a check is made: the fourth field byte with a size that fits and one that does
not, the data, the last byte of the checksum right and wrong, the trailing position. -/
theorem witness_taking_checks :
    ([0#8, 0#8, 0#8] ++ [1#8]).length = 4 ∧ be16 0#8 1#8 = 1#16 ∧ 8 - 8 < (1#16 : Half).toNat ∧
    (1#16 : Half).toNat ≤ 9 - 8 ∧ ([0#8, 0#8, 0#8, 1#8] : List Byte).length < 6 + (be16 0#8 1#8).toNat ∧
    [0#8, 0#8, 0#8, 0#8, 0#8] ++ [0#8] = bytesOf 0#16 ++ bytesOf 0#16 ++ [] ++ bytesOf 0#16 ∧
    ([] : List Byte).length = (0#16 : Half).toNat ∧ 0#16 = checksum .bootRom 0#16 0#16 [] ∧
    0#16 ≠ checksum .fdl 0#16 0#16 [] ∧
    (decoding 7 [0#8, 0#8, 0#8, 0#8, 0#8, 0#8]).work = .decoding ⟨.bootRom, 8, 7, false, [0#8, 0#8, 0#8, 0#8, 0#8, 0#8]⟩ ∧
    [0#8, 0#8, 0#8, 0#8, 0#8, 0#8] = bytesOf 0#16 ++ bytesOf 0#16 ++ [] ++ bytesOf 0#16 := by decide

/-- EncodeSendsFieldBytes: nothing out yet; a plain byte and both escaped bytes next; the trailing delimiter in the last
byte of W_BUF. -/
theorem witness_sending :
    (State.reset.setWork (.encoding ⟨0#16, [0#8], []⟩)).work = .encoding ⟨0#16, [0#8], []⟩ ∧ [0x7E#8] ≠ ([] : List Byte) ∧
    (State.reset.setWork (.encoding ⟨0#16, [0x7C#8, 0x7D#8, 0x7E#8], [0x7E#8]⟩)).work =
      .encoding ⟨0#16, [0x7C#8, 0x7D#8, 0x7E#8], [0x7E#8]⟩ ∧
    ((framedAt 16 .fdl 0#16 []).setWork (.encoding ⟨0#16, [], emptyConnect ++ emptyConnect.take 7⟩)).work =
      .encoding ⟨0#16, [], emptyConnect ++ emptyConnect.take 7⟩ ∧
    (emptyConnect ++ emptyConnect.take 7).length < (framedAt 16 .fdl 0#16 []).config.wireCap ∧
    (framedAt 16 .fdl 0#16 []).config.Ok := by decide

/-- TypeLabelsAreTheTypeField, ItemsNeedACommandInProgress. -/
theorem witness_labels : 0x0081#16 = FrameType.banner.code ∧
    (State.reset.setWork (.encoding ⟨0#16, bytesOf FrameType.banner.code ++ [0#8], [0x7E#8]⟩)).work =
      .encoding ⟨0#16, bytesOf FrameType.banner.code ++ [0#8], [0x7E#8]⟩ ∧
    (decoding 1 []).work = .decoding ⟨.bootRom, 8, 1, false, []⟩ ∧ 8 ≤ 8 ∧ State.reset.work = .idle := by decide

/-- DecodeByItemsIsDecode: lengths 8 and 7. -/
theorem witness_decode_items :
    (wired .bootRom emptyConnect 8#18).beginDecode = .next (decoding 0 []) ∧
    (wired .bootRom emptyConnect 7#18).beginDecode = .next ((wired .bootRom emptyConnect 7#18).complete 1#4) := by
  refine ⟨?_, ?_⟩ <;> rfl

/-- EncodeByItemsIsEncode: a frame that fits and one that does not. -/
theorem witness_encode_items :
    (framed .bootRom 0#16 []).frame? = some ⟨0#16, 0#16, []⟩ ∧
    (framed .bootRom 0#16 []).beginEncode =
      .next ((framed .bootRom 0#16 []).setWork (.encoding ⟨0#16, [0#8, 0#8, 0#8, 0#8, 0#8, 0#8], []⟩)) ∧
    (framedAt 16 .bootRom 2#16 [1#8]).beginEncode = .next ((framedAt 16 .bootRom 2#16 [1#8]).complete 5#4) := by
  refine ⟨?_, ?_, ?_⟩ <;> rfl

end Sys2Proof.Tests
end

section
/-! What a completed instruction can do, said once (`exec_effect`); every invariant below is a case split on it. -/

namespace Sys2Proof

/-- The frame-type labels and the wire items: the rows that are no command words (R74, R76, R140). -/
def Instr.isItem (i : Instr) : Bool :=
  match Sys2Proof.encode i with
  | .command _ => false
  | .frameType _ | .wireByte _ _ | .wirePair _ => true

end Sys2Proof

namespace Sys2Proof.Machine

/-- What instruction i does to s when it completes. The codec commands carry the value that decided how they end, an item
the codec command in progress it belongs to. -/
inductive Effect : Instr → State → State → Prop
  | setmode (m s) : Effect (.setmode m) s (s.setMode (Mode.ofBit m))
  | csum {s f} (hf : s.frame? = some f) :
      Effect .csum s ((s.setCsum (f.checksum s.mode)).complete okCode)
  | encoded {s f} (hf : s.frame? = some f) (hfit : fits s.config f.size = true) :
      Effect .encode s (s.commitEncoded (wireBytes f (f.checksum s.mode)) (f.checksum s.mode))
  | encodeFailed {s f} (hf : s.frame? = some f) (hfit : fits s.config f.size = false) :
      Effect .encode s (s.complete CodecError.allocationFailure.code)
  | decoded {s l r} (hl : s.wLen = .written l) (hr : decodeFrame s.mode s.wBuf l.toNat = .ok r) :
      Effect .decode s (s.commitDecoded r)
  | decodeFailed {s l e} (hl : s.wLen = .written l)
      (he : decodeFrame s.mode s.wBuf l.toNat = .error (.error e)) : Effect .decode s (s.complete e.code)
  | wrtype (v s) : Effect (.wrtype v) s (s.setType v)
  | wrsize (v s) : Effect (.wrsize v) s (s.setSize v)
  | wrdata {i : Half} (b s) (hi : i.toNat < dataCap) : Effect (.wrdata i b) s (s.setData i.toNat [b])
  | wrwlen {v : Wide} {s} (hv : v.toNat ≤ s.config.wireCap) : Effect (.wrwlen v) s (s.setWireLen v)
  | wrwbuf {i : Wide} (b) {s} (hi : i.toNat < s.config.wireCap) : Effect (.wrwbuf i b) s (s.setWire i.toNat [b])
  | read {i} (s w) (hi : i.isRead = true) : Effect i s (s.respond w)
  | takes {i s d d'} (hi : i.isItem = true) (hw : s.work = .decoding d) (hm : d'.mode = d.mode) (hl : d'.len = d.len)
      (hp : d'.pos < d'.len) : Effect i s (s.setWork (.decoding d'))
  | takesLast {i s d r} (hi : i.isItem = true) (hw : s.work = .decoding d)
      (hr : r.frame.data.length ≤ r.frame.size.toNat) : Effect i s ((s.setWork .idle).commitDecoded r)
  | takeFails {i s d} (e : CodecError) (hi : i.isItem = true) (hw : s.work = .decoding d) :
      Effect i s ((s.setWork .idle).complete e.code)
  | sendsFirst {i s e} (hi : i.isItem = true) (hw : s.work = .encoding e) (ho : e.out = []) :
      Effect i s (s.setWork (.encoding { e with out := [delim] }))
  | sends {i s e q rest} (hi : i.isItem = true) (hw : s.work = .encoding e) (ho : e.out ≠ []) (hq : e.todo = q ++ rest) :
      Effect i s (s.setWork (.encoding ⟨e.csum, rest, e.out ++ escapeSeq q⟩))
  | sendsLast {i s e} (hi : i.isItem = true) (hw : s.work = .encoding e) (ho : e.out ≠ []) (hq : e.todo = []) :
      Effect i s ((s.setWork .idle).commitEncoded (e.out ++ [delim]) e.csum)

/-! ### The commands -/

theorem execEncode_effect {s t : State} (h : execEncode s = .next t) : Effect .encode s t := by
  obtain ⟨f, hf, h⟩ := orFault_next h
  unfold encodeFrame at h
  cases hfit : fits s.config f.size with
  | true =>
    simp only [hfit, if_true] at h
    cases h
    exact .encoded hf hfit
  | false =>
    simp only [hfit] at h
    cases h
    exact .encodeFailed hf hfit

theorem execDecode_effect {s t : State} (h : execDecode s = .next t) : Effect .decode s t := by
  obtain ⟨l, hl, h⟩ := orFault_next h
  rw [Reg.value?_eq_some] at hl
  split at h
  · cases h
    exact .decoded hl ‹_›
  · cases h
    exact .decodeFailed hl ‹_›
  · cases h

theorem execWrdata_effect {i : Half} {b : Byte} {s t : State} (h : execWrdata i b s = .next t) :
    Effect (.wrdata i b) s t := by
  obtain ⟨hi, h⟩ := withDataIndex_next h
  cases h
  exact .wrdata b s hi

theorem execWrwlen_effect {v : Wide} {s t : State} (h : execWrwlen v s = .next t) : Effect (.wrwlen v) s t := by
  obtain ⟨hv, h⟩ := withWireLength_next h
  cases h
  exact .wrwlen hv

theorem execWrwbuf_effect {i : Wide} {b : Byte} {s t : State} (h : execWrwbuf i b s = .next t) :
    Effect (.wrwbuf i b) s t := by
  obtain ⟨hi, h⟩ := withWireIndex_next h
  cases h
  exact .wrwbuf b hi

theorem execRddata_effect {i : Half} {s t : State} (h : execRddata i s = .next t) : Effect (.rddata i) s t := by
  obtain ⟨-, h⟩ := withDataIndex_next h
  obtain ⟨b, -, h⟩ := orFault_next h
  cases h
  exact .read s (zext32 b) rfl

theorem execRdwbuf_effect {i : Wide} {s t : State} (h : execRdwbuf i s = .next t) : Effect (.rdwbuf i) s t := by
  obtain ⟨-, h⟩ := withWireIndex_next h
  obtain ⟨b, -, h⟩ := orFault_next h
  cases h
  exact .read s (zext32 b) rfl

theorem execRdreg_effect {sel : BitVec 4} {s t : State} (h : execRdreg sel s = .next t) : Effect (.rdreg sel) s t := by
  unfold execRdreg at h
  split at h
  · obtain ⟨w, -, h⟩ := orFault_next h
    cases h
    exact .read s w rfl
  · cases h

/-! ### The items -/

/-- Raw bytes that a DECODE in progress takes. -/
theorem feed_effect {i : Instr} {s t : State} {d : Decoder} {raw : List Byte} (hi : i.isItem = true)
    (hw : s.work = .decoding d) (hraw : raw ≠ []) (h : s.feed d raw = .next t) : Effect i s t := by
  rcases s.feed_next raw d with ⟨d', hf, hm, hl, hp⟩ | ⟨r, hf, hr⟩ | ⟨e, hf⟩
  all_goals obtain rfl := Host.Outcome.next.inj (hf.symm.trans h)
  · exact .takes hi hw hm hl (hp.resolve_left fun hnil => hraw hnil.1)
  · exact .takesLast hi hw hr
  · exact .takeFails e hi hw

/-- Field bytes that an ENCODE in progress sends. -/
theorem send_effect {i : Instr} {s t : State} {e : Encoder} {q : List Byte} (hi : i.isItem = true)
    (hw : s.work = .encoding e) (h : s.send e q = .next t) : Effect i s t := by
  obtain ⟨ho, rest, hq, rfl⟩ := State.send_next h
  exact .sends hi hw ho hq

theorem execWireDelim_effect {s t : State} (h : execWireDelim s = .next t) : Effect .wireDelim s t := by
  rcases wireItem_next h with ⟨d, hw, h⟩ | ⟨e, hw, h⟩
  · exact feed_effect rfl hw (by simp) h
  · rcases State.sendDelim_next h with ⟨ho, rfl⟩ | ⟨ho, hq, rfl⟩
    · exact .sendsFirst rfl hw ho
    · exact .sendsLast rfl hw ho hq

theorem execWireEsc_effect {s t : State} (h : execWireEsc s = .next t) : Effect .wireEsc s t := by
  rcases wireItem_next h with ⟨d, hw, h⟩ | ⟨e, -, h⟩
  · exact feed_effect rfl hw (by simp) h
  · cases h

theorem execWireLit_effect {b : Byte} {s t : State} (h : execWireLit b s = .next t) : Effect (.wireLit b) s t := by
  rcases wireItem_next h with ⟨d, hw, h⟩ | ⟨e, hw, h⟩
  · exact feed_effect rfl hw (by simp) h
  · split at h
    · cases h
    · exact send_effect rfl hw h

theorem execEncEscape_effect {b : Byte} {s t : State} (h : execEncEscape b s = .next t) : Effect (.encEscape b) s t := by
  rcases wireItem_next h with ⟨d, hw, h⟩ | ⟨e, hw, h⟩
  · exact feed_effect rfl hw (by simp) h
  · split at h
    · exact send_effect rfl hw h
    · cases h

theorem escapeSeq_bytesOf_ne_nil (v : Half) : escapeSeq (bytesOf v) ≠ [] := by
  intro hnil
  have hlen := escapeSeq_length (bytesOf v)
  rw [hnil] at hlen
  simp only [bytesOf, List.length_nil, List.length_cons] at hlen
  omega

theorem typeItem_effect {i : Instr} {v : Half} {s t : State} (hi : i.isItem = true) (h : typeItem v s = .next t) :
    Effect i s t := by
  rcases typeItem_next h with ⟨d, hw, -, h⟩ | ⟨e, hw, -, h⟩
  · exact feed_effect hi hw (escapeSeq_bytesOf_ne_nil v) h
  · exact send_effect hi hw h

/-- Everything a completed instruction can do. -/
theorem exec_effect {i : Instr} {s t : State} (h : exec i s = .next t) : Effect i s t := by
  cases i
  case setmode m => cases h; exact .setmode m s
  case csum =>
    obtain ⟨f, hf, h⟩ := orFault_next h
    cases h
    exact .csum hf
  case encode => exact execEncode_effect h
  case decode => exact execDecode_effect h
  case wrtype v => cases h; exact .wrtype v s
  case wrsize v => cases h; exact .wrsize v s
  case wrdata i b => exact execWrdata_effect h
  case wrwlen v => exact execWrwlen_effect h
  case wrwbuf i b => exact execWrwbuf_effect h
  case rdreg sel => exact execRdreg_effect h
  case rddata i => exact execRddata_effect h
  case rdwbuf i => exact execRdwbuf_effect h
  case reservedOp0 | reservedOpD | reservedOpE | reservedOpF => cases h
  case wireDelim => exact execWireDelim_effect h
  case wireEsc => exact execWireEsc_effect h
  case wireLit b => exact execWireLit_effect h
  case encEscape b => exact execEncEscape_effect h
  all_goals exact typeItem_effect rfl h

end Sys2Proof.Machine
end

section
/-! The invariant, readiness and the parameter: what every step keeps (O12 to O15), and what a step runs (O6). -/

namespace Sys2Proof.Machine

/-! ### Facts about single updates -/

theorem CodecError.code_le (e : CodecError) : e.code.toNat ≤ 5 := by cases e <;> decide

theorem escapeSeq_length_le (q : List Byte) : (escapeSeq q).length ≤ 2 * q.length := by
  have hlen := escapeSeq_length q
  have hcount : q.countP special ≤ q.length := List.countP_le_length
  omega

theorem wireBytes_length_le (f : Frame) (c : Half) : (wireBytes f c).length ≤ 14 + 2 * f.data.length := by
  have ht := escapeSeq_length_le (bytesOf f.type)
  have hz := escapeSeq_length_le (bytesOf f.size)
  have hd := escapeSeq_length_le f.data
  have hc := escapeSeq_length_le (bytesOf c)
  have hb : ∀ v : Half, (bytesOf v).length = 2 := fun _ => rfl
  rw [hb] at ht hz hc
  simp only [wireBytes, List.length_append, List.length_singleton]
  omega

theorem State.frame?_length {s : State} {f : Frame} (h : s.frame? = some f) : f.data.length = f.size.toNat := by
  unfold State.frame? at h
  split at h
  · obtain ⟨d, hd, rfl⟩ := Option.map_eq_some_iff.1 h
    exact ((Memory.readFrom_eq_some _ _ _ _).1 hd).1
  · cases h

theorem wireBytes_length_le_wireCap {s : State} {f : Frame} (hf : s.frame? = some f) (hfit : fits s.config f.size = true)
    (c : Half) : (wireBytes f c).length ≤ s.config.wireCap := by
  have hlen := wireBytes_length_le f c
  have hsize := State.frame?_length hf
  have hroom : 2 * (8 + f.size.toNat) ≤ s.config.wireCap := of_decide_eq_true hfit
  omega

/-! ### The invariant (R6, R23, R26, R29, R51, R162, R196) -/

namespace State.Inv

variable {s : State} (h : s.Inv)
include h

theorem setPending (ws : List Word) : (s.setPending ws).Inv := { h with }

theorem setMode (m : Mode) : (s.setMode m).Inv := { h with }

theorem setType (v : Half) : (s.setType v).Inv := { h with }

theorem setSize (v : Half) : (s.setSize v).Inv := { h with }

theorem setCsum (v : Half) : (s.setCsum v).Inv := { h with }

theorem respond (w : Word) : (s.respond w).Inv := { h with }

theorem complete {c : BitVec 4} (hc : c.toNat ≤ 5) : (s.complete c).Inv := { h with status := hc }

theorem setWork {w : Work} (hw : w.Ok s.config.wireCap) : (s.setWork w).Inv := { h with work := hw }

theorem setIdle : (s.setWork .idle).Inv := { h with work := trivial }

theorem setWireLen {v : Wide} (hv : v.toNat ≤ s.config.wireCap) : (s.setWireLen v).Inv :=
  { h with wLen := fun u hu => by obtain rfl := Reg.written.inj hu; exact hv }

theorem setData {k : Nat} {bs : List Byte} (hk : k + bs.length ≤ dataCap) : (s.setData k bs).Inv :=
  { h with
    dataWf := Memory.writeFrom_wf bs k h.dataWf
    dataBelow := Memory.writeFrom_below bs k h.dataBelow hk }

theorem setWire {k : Nat} {bs : List Byte} (hk : k + bs.length ≤ s.config.wireCap) : (s.setWire k bs).Inv :=
  { h with
    wireWf := Memory.writeFrom_wf bs k h.wireWf
    wireBelow := Memory.writeFrom_below bs k h.wireBelow hk }

theorem commitEncoded {out : List Byte} (hout : out.length ≤ s.config.wireCap) (c : Half) :
    (s.commitEncoded out c).Inv := by
  have hlen : (BitVec.ofNat 18 out.length).toNat ≤ s.config.wireCap :=
    Nat.le_trans (BitVec.toNat_ofNat _ _ ▸ Nat.mod_le _ _) hout
  have hwire : (s.setWire 0 out).Inv := h.setWire (by omega)
  exact ((hwire.setWireLen hlen).setCsum c).complete (by decide)

theorem commitDecoded {r : Decoded} (hr : r.frame.data.length ≤ r.frame.size.toNat) : (s.commitDecoded r).Inv := by
  have hdata : 0 + r.frame.data.length ≤ dataCap := by
    have hsize := r.frame.size.isLt
    simp only [dataCap]
    omega
  exact ((((h.setType _).setSize _).setData hdata).setCsum _).complete (by decide)

/-- A DECODE in progress whose cursor moved to another byte below its length. -/
theorem setDecoding {d d' : Decoder} (hw : s.work = .decoding d) (hl : d'.len = d.len) (hp : d'.pos < d'.len) :
    (s.setWork (.decoding d')).Inv := by
  have hok := h.work
  rw [hw] at hok
  obtain ⟨hmin, hcap, -⟩ := hok
  exact h.setWork ⟨hl ▸ hmin, hl ▸ hcap, hp⟩

/-- The room an ENCODE in progress needs: what is out, two bytes for each field byte to come, and a delimiter. -/
theorem encoding_le {e : Encoder} (hw : s.work = .encoding e) :
    (if e.out = [] then 1 else e.out.length) + 2 * e.todo.length + 1 ≤ s.config.wireCap := by
  have hok := h.work
  rw [hw] at hok
  exact hok

theorem setEncoding_first {e : Encoder} (hw : s.work = .encoding e) (ho : e.out = []) :
    (s.setWork (.encoding { e with out := [delim] })).Inv := by
  have hroom := h.encoding_le hw
  rw [if_pos ho] at hroom
  exact h.setWork hroom

theorem setEncoding_sent {e : Encoder} {q rest : List Byte} (hw : s.work = .encoding e) (ho : e.out ≠ [])
    (hq : e.todo = q ++ rest) : (s.setWork (.encoding ⟨e.csum, rest, e.out ++ escapeSeq q⟩)).Inv := by
  have hroom := h.encoding_le hw
  rw [if_neg ho, hq, List.length_append] at hroom
  have hesc := escapeSeq_length_le q
  refine h.setWork ?_
  simp only [Work.Ok, List.append_eq_nil_iff, ho, false_and, if_false, List.length_append]
  omega

/-- R6 to R29, for whatever an instruction does. -/
theorem effect {i : Instr} {t : State} (he : Effect i s t) : t.Inv := by
  cases he with
  | setmode m => exact h.setMode _
  | csum => exact (h.setCsum _).complete (by decide)
  | encoded hf hfit => exact h.commitEncoded (wireBytes_length_le_wireCap hf hfit _) _
  | encodeFailed => exact h.complete (CodecError.code_le _)
  | @decoded _ _ r _ hr =>
    obtain ⟨-, -, _, _, _, _, -, -, -, hdata, -⟩ := decodeFrame_ok hr
    exact h.commitDecoded (readFields_ok hdata).1.le
  | decodeFailed => exact h.complete (CodecError.code_le _)
  | wrtype v => exact h.setType v
  | wrsize v => exact h.setSize v
  | wrdata b _ hi => exact h.setData hi
  | wrwlen hv => exact h.setWireLen hv
  | wrwbuf b hi => exact h.setWire hi
  | read _ w _ => exact h.respond w
  | takes _ hw _ hl hp => exact h.setDecoding hw hl hp
  | takesLast _ _ hr => exact h.setIdle.commitDecoded hr
  | takeFails e _ _ => exact h.setIdle.complete e.code_le
  | sendsFirst _ hw ho => exact h.setEncoding_first hw ho
  | sends _ hw ho hq => exact h.setEncoding_sent hw ho hq
  | @sendsLast _ _ e _ hw ho hq =>
    have hroom := h.encoding_le hw
    rw [if_neg ho, hq] at hroom
    exact h.setIdle.commitEncoded (by simpa using hroom) _

end State.Inv

/-- What fetch hands to exec is the state itself, or the state without its oldest command word. -/
theorem fetch_state {s u : State} {i : Instr} (h : fetch s = .next (some (i, u))) :
    u = s ∨ ∃ ws, u = s.setPending ws := by
  obtain ⟨-, -, ⟨_, _, -, -, -, hu⟩ | ⟨_, -, -, hu⟩ | ⟨_, ws, -, -, -, hu⟩⟩ := fetch_cases h
  · exact .inl hu
  · exact .inl hu
  · exact .inr ⟨ws, hu⟩

/-- Settles O13: a step is an instruction's effect on the state fetch hands over, and each effect keeps the invariant. -/
theorem everyStepKeepsTheInvariant : Obligations.EveryStepKeepsTheInvariant := by
  intro s t hs hstep
  rcases step_cases hstep with ⟨i, u, hf, he⟩ | ⟨-, rfl⟩
  · rcases fetch_state hf with rfl | ⟨ws, rfl⟩
    · exact hs.effect (exec_effect he)
    · exact (hs.setPending ws).effect (exec_effect he)
  · exact hs

/-! ### What no instruction changes (R6, R30) -/

theorem Effect.keeps {i : Instr} {s t : State} (h : Effect i s t) :
    t.config = s.config ∧ t.pending = s.pending ∧ t.faultMark = s.faultMark ∧ t.refusalMark = s.refusalMark := by
  cases h <;> simp

/-- With no codec command in progress, no instruction starts one. -/
theorem Effect.work_idle {i : Instr} {s t : State} (h : Effect i s t) (hw : s.work = .idle) : t.work = .idle := by
  cases h with
  | takes _ hd => exact nomatch hw.symm.trans hd
  | takesLast _ hd => exact nomatch hw.symm.trans hd
  | takeFails _ _ hd => exact nomatch hw.symm.trans hd
  | sendsFirst _ hd => exact nomatch hw.symm.trans hd
  | sends _ hd => exact nomatch hw.symm.trans hd
  | sendsLast _ hd => exact nomatch hw.symm.trans hd
  | _ => simpa using hw

/-- Settles O15: no effect writes WIRE_CAP, the host's words or a mark. -/
theorem noInstructionChangesTheParameter : Obligations.NoInstructionChangesTheParameter :=
  fun _ _ _ h => (exec_effect h).keeps

/-- Settles O14: fetch hands over a ready state, no instruction writes a mark (O15), and none starts working state. -/
theorem everyStepKeepsTheBlockReady : Obligations.EveryStepKeepsTheBlockReady := by
  intro s t hs hstep
  rcases step_cases hstep with ⟨i, u, hf, he⟩ | ⟨-, rfl⟩
  · have hu : u.Ready := by
      rcases fetch_state hf with rfl | ⟨ws, rfl⟩
      · exact hs
      · exact ⟨hs.1, hs.2, hs.3⟩
    obtain ⟨-, -, hfault, hrefusal⟩ := (exec_effect he).keeps
    exact ⟨hfault.trans hu.faultMark, hrefusal.trans hu.refusalMark, (exec_effect he).work_idle hu.work⟩
  · exact hs

/-! ### What a step runs (R9), and reset (R270) -/

/-- What a ready block fetches is decided by the oldest command word. -/
theorem fetch_ready {s : State} (h : s.Ready) :
    (s.pending = [] → fetch s = .next none) ∧
    (∀ w ws i, s.pending = w :: ws → decode (.command w) = .ok i → fetch s = .next (some (i, s.setPending ws))) ∧
    (∀ w ws r, s.pending = w :: ws → decode (.command w) = .error r → fetch s = .refused .reservedEncoding) := by
  refine ⟨fun hp => ?_, fun w ws i hp hd => ?_, fun w ws r hp hd => ?_⟩
  · simp [fetch, h.faultMark, h.refusalMark, h.work, hp]
  · simp [fetch, h.faultMark, h.refusalMark, h.work, hp, hd]
  · simp [fetch, h.faultMark, h.refusalMark, h.work, hp, hd]

/-- Settles O6: step runs what a ready block fetches. -/
theorem stepRunsTheOldestCommand : Obligations.StepRunsTheOldestCommand := by
  intro s hs
  obtain ⟨hnone, hok, herror⟩ := fetch_ready hs
  refine ⟨fun w ws i hp hd => ?_, fun w ws r hp hd => ?_, fun hp => ?_⟩
  · simp [step, hok w ws i hp hd]
  · simp [step, herror w ws r hp hd]
  · simp [step, hnone hp]

/-- Settles O12: after reset STATUS is 0, both buffers are empty, and W_LEN holds 0 or nothing. -/
theorem resetMeetsTheInvariant : Obligations.ResetMeetsTheInvariant := by
  intro c hc
  have hunwritten : (State.resetUnwritten c).Inv :=
    { config := hc, status := by simp, wLen := by simp, dataWf := .nil, dataBelow := by simp [Memory.Below],
      wireWf := .nil, wireBelow := by simp [Memory.Below], work := trivial }
  have hlen : (0#18).toNat ≤ c.wireCap := Nat.zero_le _
  exact ⟨(((hunwritten.setType 0#16).setSize 0#16).setCsum 0#16).setWireLen hlen, hunwritten⟩

end Sys2Proof.Machine
end

section
/-! ENCODE by items is ENCODE (O59): each step of an ENCODE in progress sends at least one of the field bytes to come, so
that one step per field byte, and one per delimiter, are enough. -/

namespace Sys2Proof.Machine

/-! ### Running a codec command in progress -/

@[simp] theorem State.setWork_setWork (s : State) (w w' : Work) : (s.setWork w).setWork w' = s.setWork w' := rfl

/-- A block between two commands already has no working state. -/
theorem State.Ready.setWork_idle {s : State} (h : s.Ready) : s.setWork .idle = s := by
  rw [← h.work]
  rfl

theorem runWork_idle (fuel : Nat) {s : State} (h : s.work = .idle) : runWork fuel s = .next s := by
  cases fuel <;> simp [runWork, h]

/-- While a codec command is in progress, a step that completes is one of the fuel. -/
theorem runWork_succ {s t : State} (hw : s.work ≠ .idle) (h : step s = .next t) (fuel : Nat) :
    runWork (fuel + 1) s = runWork fuel t := by
  simp [runWork, hw, h]

theorem step_encoding {s : State} (hf : s.faultMark = false) (hr : s.refusalMark = false) (e : Encoder) :
    step (s.setWork (.encoding e)) = exec e.nextItem (s.setWork (.encoding e)) := by
  simp [step, fetch, hf, hr]

/-! ### The next item of an ENCODE in progress -/

theorem exec_frameType (l : FrameType) (s : State) : exec l.instr s = typeItem l.code s := by
  cases l <;> rfl

/-- A label stands for the two field bytes to come (R74). -/
theorem Encoder.todo_of_label {e : Encoder} {l : FrameType} (h : e.label = some l) :
    e.atType = true ∧ ∃ rest, e.todo = bytesOf l.code ++ rest := by
  unfold Encoder.label at h
  split at h
  · rename_i hi lo rest htodo
    split at h
    · rename_i hat
      have hcode : l.code = be16 hi lo := by simpa using List.find?_some h
      exact ⟨hat, rest, by rw [htodo, hcode, bytesOf_be16]; rfl⟩
    · cases h
  · cases h

/-- A label stands right after the leading delimiter, so there is none before it. -/
theorem Encoder.label_eq_none {e : Encoder} (h : e.out = []) : e.label = none := by
  cases hl : e.label with
  | none => rfl
  | some l => simpa [Encoder.atType, h] using (Encoder.todo_of_label hl).1

theorem Encoder.label_of_todo_nil {e : Encoder} (h : e.todo = []) : e.label = none := by simp [Encoder.label, h]

/-- Before the first field byte, and after the last, the next item is a delimiter (R142). -/
theorem Encoder.nextItem_eq_wireDelim {e : Encoder} (h : e.out = [] ∨ e.todo = []) : e.nextItem = .wireDelim := by
  unfold Encoder.nextItem
  rcases h with ho | hq
  · rw [Encoder.label_eq_none ho]
    cases e.todo <;> simp [ho]
  · rw [Encoder.label_of_todo_nil hq, hq]

/-- Sending the field bytes that are next. -/
theorem State.send_append (s : State) {e : Encoder} {q rest : List Byte} (ho : e.out ≠ []) (hq : e.todo = q ++ rest) :
    s.send e q = .next (s.setWork (.encoding ⟨e.csum, rest, e.out ++ escapeSeq q⟩)) := by
  simp [State.send, ho, hq]

/-- Between the delimiters the next item sends at least one of the field bytes to come. -/
theorem exec_nextItem {s : State} {e : Encoder} (hw : s.work = .encoding e) (ho : e.out ≠ []) (htodo : e.todo ≠ []) :
    ∃ q rest, q ≠ [] ∧ e.todo = q ++ rest ∧
      exec e.nextItem s = .next (s.setWork (.encoding ⟨e.csum, rest, e.out ++ escapeSeq q⟩)) := by
  cases hl : e.label with
  | some l =>
    obtain ⟨hat, rest, hq⟩ := Encoder.todo_of_label hl
    refine ⟨bytesOf l.code, rest, by simp [bytesOf], hq, ?_⟩
    have hitem : e.nextItem = l.instr := by simp [Encoder.nextItem, hl]
    rw [hitem, exec_frameType, ← s.send_append ho hq]
    simp [typeItem, hw, hat]
  | none =>
    obtain ⟨b, rest, hq⟩ := List.exists_cons_of_ne_nil htodo
    refine ⟨[b], rest, by simp, hq, ?_⟩
    rw [← s.send_append ho hq]
    cases hb : special b with
    | true =>
      have hitem : e.nextItem = .encEscape b := by simp [Encoder.nextItem, hl, hq, ho, hb]
      simp [hitem, exec, execEncEscape, wireItem, hw, hb]
    | false =>
      have hitem : e.nextItem = .wireLit b := by simp [Encoder.nextItem, hl, hq, ho, hb]
      simp [hitem, exec, execWireLit, wireItem, hw, hb]

/-! ### From the first item to the last -/

/-- After the leading delimiter, the items send the field bytes to come and the trailing delimiter, and commit. -/
theorem runWork_encoding {s : State} (hf : s.faultMark = false) (hr : s.refusalMark = false) :
    ∀ (fuel : Nat) (e : Encoder), e.out ≠ [] → e.todo.length < fuel →
      runWork fuel (s.setWork (.encoding e)) =
        .next ((s.setWork .idle).commitEncoded (e.out ++ escapeSeq e.todo ++ [delim]) e.csum) := by
  intro fuel
  induction fuel with
  | zero => intro e _ h; omega
  | succ fuel ih =>
    intro e ho hfuel
    have hstep := step_encoding hf hr e
    by_cases hq : e.todo = []
    · have hlast : exec e.nextItem (s.setWork (.encoding e)) =
          .next ((s.setWork .idle).commitEncoded (e.out ++ [delim]) e.csum) := by
        rw [Encoder.nextItem_eq_wireDelim (.inr hq)]
        simp [exec, execWireDelim, wireItem, State.sendDelim, ho, hq]
      rw [runWork_succ (by simp) (hstep.trans hlast), runWork_idle _ (by simp), hq]
      simp
    · obtain ⟨q, rest, hne, hcat, hsend⟩ := exec_nextItem (s := s.setWork (.encoding e)) rfl ho hq
      have hpos := List.length_pos_iff.2 hne
      have hlen : e.todo.length = q.length + rest.length := by rw [hcat, List.length_append]
      rw [runWork_succ (by simp) (hstep.trans hsend), State.setWork_setWork,
        ih ⟨e.csum, rest, e.out ++ escapeSeq q⟩ (by simp [ho]) (by simp only; omega), hcat]
      simp

/-- An ENCODE that has sent nothing yet: one step sends the leading delimiter, and the others follow. -/
theorem runWork_encoding_start {s : State} (h : s.Ready) (c : Half) (q : List Byte) {fuel : Nat}
    (hfuel : q.length + 1 < fuel) :
    runWork fuel (s.setWork (.encoding ⟨c, q, []⟩)) = .next (s.commitEncoded ([delim] ++ escapeSeq q ++ [delim]) c) := by
  obtain ⟨fuel, rfl⟩ : ∃ n, fuel = n + 1 := ⟨fuel - 1, by omega⟩
  have hfirst : step (s.setWork (.encoding ⟨c, q, []⟩)) = .next (s.setWork (.encoding ⟨c, q, [delim]⟩)) := by
    rw [step_encoding h.faultMark h.refusalMark, Encoder.nextItem_eq_wireDelim (.inl rfl)]
    rfl
  rw [runWork_succ (by simp) hfirst,
    runWork_encoding h.faultMark h.refusalMark fuel ⟨c, q, [delim]⟩ (by simp) (by simp only; omega), h.setWork_idle]

theorem wireBytes_eq (f : Frame) (c : Half) : wireBytes f c = [delim] ++ escapeSeq (fieldBytes f c) ++ [delim] := by
  simp only [wireBytes, fieldBytes, escapeSeq_append, List.append_assoc]

theorem fieldBytes_length (f : Frame) (c : Half) : (fieldBytes f c).length = 6 + f.data.length := by
  simp [fieldBytes, bytesOf]
  omega

/-- Settles O59: the field bytes of a frame are its size and six more, with a step each, and a step for each delimiter. -/
theorem encodeByItemsIsEncode : Obligations.EncodeByItemsIsEncode := by
  intro s t f hs hf hbegin
  simp only [State.beginEncode, hf, orFault_some] at hbegin
  simp only [exec, execEncode, hf, orFault_some, encodeFrame]
  cases hfit : fits s.config f.size with
  | true =>
    simp only [hfit, if_true] at hbegin ⊢
    obtain rfl := Host.Outcome.next.inj hbegin
    have hlen := fieldBytes_length f (f.checksum s.mode)
    have hsize := State.frame?_length hf
    rw [runWork_encoding_start hs _ _ (by omega), wireBytes_eq]
  | false =>
    simp only [hfit, Bool.false_eq_true, if_false] at hbegin ⊢
    obtain rfl := Host.Outcome.next.inj hbegin
    exact runWork_idle _ hs.work

end Sys2Proof.Machine
end

section
/-! DECODE by items is DECODE (O58). `Decoder.finish` is what DecodeFrame (R180) still has to do in the middle of a frame: at
the first raw byte it is DecodeFrame itself, and taking one raw byte leaves what there is to do after that byte. -/

namespace Sys2Proof.Machine

/-! ### DecodeFrame from the middle of a frame -/

/-- The field bytes q have been read, and the cursor is at pos. -/
def Decoder.taking (d : Decoder) (q : List Byte) (pos : Nat) : Decoder :=
  { d with pos := pos, escaped := false, bytes := d.bytes ++ q }

/-- R143: n more field bytes. -/
def Decoder.readMore (d : Decoder) (ph : Phase) (w : Memory) (n : Nat) : Dec Decoder := do
  let (q, pos) ← readFields ph w d.len n d.pos
  .ok (d.taking q pos)

/-- R189, R190: the trailing delimiter. -/
def Decoder.fromTrailer (d : Decoder) (w : Memory) : Dec Decoded := do
  require (d.pos < d.len) .framingError
  let last ← rawByte w d.pos
  require (last = delim) .framingError
  .ok ⟨⟨d.type, d.size, d.data⟩, d.csum, d.pos + 1⟩

/-- R187, R188: what is left of the checksum field, and what follows it. -/
def Decoder.fromCsum (d : Decoder) (w : Memory) : Dec Decoded := do
  let d ← d.readMore .csum w (6 + d.size.toNat - d.bytes.length)
  require (d.csum = d.expected) .checksumMismatch
  d.fromTrailer w

/-- R185: what is left of the data, and what follows it. -/
def Decoder.fromData (d : Decoder) (w : Memory) : Dec Decoded := do
  let d ← d.readMore .data w (4 + d.size.toNat - d.bytes.length)
  d.fromCsum w

/-- R183, R184: what is left of the header, and what follows it. A field that has been read is read no further, so this is
what is left wherever between two field bytes the cursor stands. -/
def Decoder.fromHeader (d : Decoder) (w : Memory) : Dec Decoded := do
  let d ← d.readMore .hdr w (4 - d.bytes.length)
  require (d.size.toNat ≤ d.len - 8) .dataUnderflow
  d.fromData w

/-- What is left of DecodeFrame, within an escape pair and at the leading delimiter too. -/
def Decoder.finish (d : Decoder) (w : Memory) : Dec Decoded :=
  if d.pos = 0 then do
    let first ← rawByte w 0
    require (first = delim) .framingError
    { d with pos := 1 }.fromHeader w
  else if d.escaped then do
    let y ← rawByte w d.pos
    (d.taking [y ^^^ escXor] (d.pos + 1)).fromHeader w
  else d.fromHeader w

/-- What is left of DecodeFrame after a raw byte. -/
def Taken.finish (w : Memory) : Taken → Dec Decoded
  | .more d => d.finish w
  | .done r => .ok r
  | .failed e => .error (.error e)

/-! ### The fields while bytes come in -/

section
variable (d : Decoder) (q : List Byte) (pos : Nat)

@[simp] theorem Decoder.taking_mode : (d.taking q pos).mode = d.mode := rfl
@[simp] theorem Decoder.taking_len : (d.taking q pos).len = d.len := rfl
@[simp] theorem Decoder.taking_pos : (d.taking q pos).pos = pos := rfl
@[simp] theorem Decoder.taking_escaped : (d.taking q pos).escaped = false := rfl
@[simp] theorem Decoder.taking_bytes : (d.taking q pos).bytes = d.bytes ++ q := rfl

end

theorem Decoder.taking_nil {d : Decoder} (h : d.escaped = false) : d.taking [] d.pos = d := by
  simp [Decoder.taking, ← h]

/-- Once the header is there, the size stays. -/
theorem Decoder.taking_size {d : Decoder} (h : 4 ≤ d.bytes.length) (q : List Byte) (pos : Nat) :
    (d.taking q pos).size = d.size := by
  simp only [Decoder.size, Decoder.taking_bytes]
  rw [List.getD_append _ _ _ _ (by omega), List.getD_append _ _ _ _ (by omega)]

theorem Decoder.readMore_zero {d : Decoder} (h : d.escaped = false) (ph : Phase) (w : Memory) :
    d.readMore ph w 0 = .ok d := by
  simp [Decoder.readMore, readFields, Decoder.taking_nil h]

theorem Decoder.readMore_succ (d : Decoder) (ph : Phase) (w : Memory) (n : Nat) :
    d.readMore ph w (n + 1) = readField ph w d.len d.pos >>= fun x => (d.taking [x.1] x.2).readMore ph w n := by
  simp only [Decoder.readMore, readFields]
  cases readField ph w d.len d.pos with
  | error e => rfl
  | ok x =>
    simp only [Dec.ok_bind, Decoder.taking_len, Decoder.taking_pos]
    cases readFields ph w d.len n x.2 with
    | error e => rfl
    | ok y => simp [Decoder.taking]

/-! ### A field that is complete is read no further -/

theorem Decoder.fromHeader_of_header {d : Decoder} (he : d.escaped = false) (h : 4 ≤ d.bytes.length) (w : Memory) :
    d.fromHeader w = require (d.size.toNat ≤ d.len - 8) .dataUnderflow >>= fun _ => d.fromData w := by
  simp [Decoder.fromHeader, Nat.sub_eq_zero_of_le h, Decoder.readMore_zero he]

theorem Decoder.fromData_of_data {d : Decoder} (he : d.escaped = false) (h : 4 + d.size.toNat ≤ d.bytes.length)
    (w : Memory) : d.fromData w = d.fromCsum w := by
  simp [Decoder.fromData, Nat.sub_eq_zero_of_le h, Decoder.readMore_zero he]

theorem Decoder.fromCsum_of_csum {d : Decoder} (he : d.escaped = false) (h : 6 + d.size.toNat ≤ d.bytes.length)
    (w : Memory) :
    d.fromCsum w = require (d.csum = d.expected) .checksumMismatch >>= fun _ => d.fromTrailer w := by
  simp [Decoder.fromCsum, Nat.sub_eq_zero_of_le h, Decoder.readMore_zero he]

/-! ### The checks that the bytes taken so far have passed -/

/-- R184 is checked with the fourth field byte, R188 with the last. -/
structure Decoder.Checked (d : Decoder) : Prop where
  size : 4 ≤ d.bytes.length → d.size.toNat ≤ d.len - 8
  csum : 6 + d.size.toNat ≤ d.bytes.length → d.csum = d.expected

/-- The phase that the number of field bytes names (R76, R143). -/
theorem Decoder.place_inField {d : Decoder} {ph : Phase} (h : d.place = .inField ph) :
    0 < d.pos ∧ d.bytes.length < 6 + d.size.toNat ∧
    (ph = .hdr ∧ d.bytes.length < 4 ∨ ph = .data ∧ 4 ≤ d.bytes.length ∧ d.bytes.length < 4 + d.size.toNat ∨
      ph = .csum ∧ 4 + d.size.toNat ≤ d.bytes.length) := by
  unfold Decoder.place at h
  repeat' split at h
  all_goals cases h
  · exact ⟨by omega, by omega, .inl ⟨rfl, by omega⟩⟩
  · exact ⟨by omega, by omega, .inr (.inl ⟨rfl, by omega, by omega⟩)⟩
  · exact ⟨by omega, by omega, .inr (.inr ⟨rfl, by omega⟩)⟩

theorem Decoder.place_trailing {d : Decoder} (h : d.place = .trailing) :
    0 < d.pos ∧ 6 + d.size.toNat ≤ d.bytes.length := by
  unfold Decoder.place at h
  repeat' split at h
  all_goals cases h
  exact ⟨by omega, by omega⟩

theorem Decoder.place_leading {d : Decoder} : d.place = .leading ↔ d.pos = 0 := by
  unfold Decoder.place
  refine ⟨fun h => ?_, fun h => if_pos h⟩
  by_contra h0
  rw [if_neg h0] at h
  repeat' split at h
  all_goals cases h

theorem Decoder.fromHeader_of_checked {d : Decoder} (hc : d.Checked) (he : d.escaped = false) (h : 4 ≤ d.bytes.length)
    (w : Memory) : d.fromHeader w = d.fromData w := by
  rw [Decoder.fromHeader_of_header he h, decide_eq_true (hc.size h), require_true, Dec.ok_bind]

theorem Decoder.fromHeader_of_trailing {d : Decoder} (hc : d.Checked) (he : d.escaped = false) (hp : d.place = .trailing)
    (w : Memory) : d.fromHeader w = d.fromTrailer w := by
  obtain ⟨-, hlen⟩ := Decoder.place_trailing hp
  rw [Decoder.fromHeader_of_checked hc he (by omega), Decoder.fromData_of_data he (by omega),
    Decoder.fromCsum_of_csum he hlen, decide_eq_true (hc.csum hlen), require_true, Dec.ok_bind]

/-- Between two field bytes, what is left is the next field byte and then what is left after it. -/
theorem Decoder.fromHeader_readField {d : Decoder} {ph : Phase} (hc : d.Checked) (he : d.escaped = false)
    (hp : d.place = .inField ph) (w : Memory) :
    d.fromHeader w = readField ph w d.len d.pos >>= fun x => (d.taking [x.1] x.2).fromHeader w := by
  have hone : ∀ x : Byte × Nat, (d.taking [x.1] x.2).bytes.length = d.bytes.length + 1 := by simp
  obtain ⟨-, hlt, ⟨rfl, hhdr⟩ | ⟨rfl, hdata, hlt'⟩ | ⟨rfl, hcsum⟩⟩ := Decoder.place_inField hp
  · have hn : 4 - d.bytes.length = (4 - (d.bytes.length + 1)) + 1 := by omega
    simp only [Decoder.fromHeader, hn, Decoder.readMore_succ, bind_assoc, hone]
  · have hn : 4 + d.size.toNat - d.bytes.length = (4 + d.size.toNat - (d.bytes.length + 1)) + 1 := by omega
    have hsize := Decoder.taking_size hdata
    have hnext : ∀ x : Byte × Nat, (d.taking [x.1] x.2).fromHeader w = (d.taking [x.1] x.2).fromData w := fun x => by
      rw [Decoder.fromHeader_of_header rfl (by rw [hone]; omega), hsize, Decoder.taking_len,
        decide_eq_true (hc.size hdata), require_true, Dec.ok_bind]
    simp only [Decoder.fromHeader_of_checked hc he hdata, hnext]
    simp only [Decoder.fromData, hn, Decoder.readMore_succ, bind_assoc, hone, hsize]
  · have hdata : 4 ≤ d.bytes.length := by omega
    have hn : 6 + d.size.toNat - d.bytes.length = (6 + d.size.toNat - (d.bytes.length + 1)) + 1 := by omega
    have hsize := Decoder.taking_size hdata
    have hnext : ∀ x : Byte × Nat, (d.taking [x.1] x.2).fromHeader w = (d.taking [x.1] x.2).fromCsum w := fun x => by
      rw [Decoder.fromHeader_of_header rfl (by rw [hone]; omega), hsize, Decoder.taking_len,
        decide_eq_true (hc.size hdata), require_true, Dec.ok_bind,
        Decoder.fromData_of_data rfl (by rw [hone, hsize]; omega)]
    simp only [Decoder.fromHeader_of_checked hc he hdata, Decoder.fromData_of_data he hcsum, hnext]
    simp only [Decoder.fromCsum, hn, Decoder.readMore_succ, bind_assoc, hone, hsize]

/-! ### One raw byte -/

theorem Decoder.finish_of_unescaped {d : Decoder} (h0 : 0 < d.pos) (he : d.escaped = false) (w : Memory) :
    d.finish w = d.fromHeader w := by
  simp [Decoder.finish, Nat.ne_of_gt h0, he]

/-- The bounds check made early (log 9) is the one DecodeFrame makes next. -/
theorem Decoder.proceed_finish {d : Decoder} (h0 : 0 < d.pos) (hc : d.Checked) (he : d.escaped = false) (w : Memory) :
    d.proceed.finish w = d.fromHeader w := by
  by_cases hlt : d.pos < d.len
  · rw [← Decoder.finish_of_unescaped h0 he]
    simp [Decoder.proceed, hlt, Taken.finish]
  · cases hp : d.place with
    | leading => exact absurd (Decoder.place_leading.1 hp) (by omega)
    | inField ph =>
      rw [Decoder.fromHeader_readField hc he hp]
      simp [Decoder.proceed, hlt, Taken.finish, Decoder.outOfData, hp, readField]
    | trailing =>
      rw [Decoder.fromHeader_of_trailing hc he hp]
      simp [Decoder.proceed, hlt, Taken.finish, Decoder.outOfData, hp, Decoder.fromTrailer]

/-- The checks made when a field byte is complete (R184, R188, R143). -/
def Decoder.check (d : Decoder) : Taken :=
  if d.bytes.length = 4 ∧ d.len - 8 < d.size.toNat then .failed .dataUnderflow
  else if d.bytes.length = 6 + d.size.toNat ∧ d.csum ≠ d.expected then .failed .checksumMismatch
  else d.proceed

theorem Decoder.push_eq_check (d : Decoder) (y : Byte) : d.push y = (d.taking [y] (d.pos + 1)).check := rfl

/-- What holds of a decoder whose last field byte has not been checked yet: the size was, and no field byte came after the
checksum. -/
theorem Decoder.Checked.taking {d : Decoder} {ph : Phase} (hc : d.Checked) (hp : d.place = .inField ph) (y : Byte)
    (pos : Nat) : 4 < (d.taking [y] pos).bytes.length → (d.taking [y] pos).size.toNat ≤ (d.taking [y] pos).len - 8 ∧
      (d.taking [y] pos).bytes.length ≤ 6 + (d.taking [y] pos).size.toNat := by
  intro hlen
  obtain ⟨-, hlt, -⟩ := Decoder.place_inField hp
  have hone : (d.taking [y] pos).bytes.length = d.bytes.length + 1 := by simp
  have hdata : 4 ≤ d.bytes.length := by omega
  rw [Decoder.taking_size hdata, hone]
  exact ⟨hc.size hdata, hlt⟩

section
variable {d : Decoder} (h : 4 < d.bytes.length → d.size.toNat ≤ d.len - 8 ∧ d.bytes.length ≤ 6 + d.size.toNat)
include h

/-- A decoder that passes the checks made with its last field byte has passed them all. -/
theorem Decoder.checked_of_check (hsize : ¬ (d.bytes.length = 4 ∧ d.len - 8 < d.size.toNat))
    (hcsum : ¬ (d.bytes.length = 6 + d.size.toNat ∧ d.csum ≠ d.expected)) : d.Checked := by
  constructor
  · intro hlen
    rcases Nat.eq_or_lt_of_le hlen with heq | hlt
    · exact Nat.not_lt.1 fun hbig => hsize ⟨heq.symm, hbig⟩
    · exact (h hlt).1
  · intro hlen
    have hle := (h (by omega)).2
    exact not_not.1 fun hne => hcsum ⟨by omega, hne⟩

theorem Decoder.checked_of_check_more {d' : Decoder} (hm : d.check = .more d') : d.Checked := by
  unfold Decoder.check at hm
  split at hm
  · cases hm
  · split at hm
    · cases hm
    · exact Decoder.checked_of_check h ‹_› ‹_›

/-- The checks made when a field byte is complete are those DecodeFrame makes next. -/
theorem Decoder.check_finish (h0 : 0 < d.pos) (he : d.escaped = false) (w : Memory) :
    d.check.finish w = d.fromHeader w := by
  unfold Decoder.check
  split
  · rename_i hbad
    obtain ⟨hfour, hbig⟩ := hbad
    rw [Decoder.fromHeader_of_header he hfour.ge, decide_eq_false (Nat.not_le.2 hbig)]
    rfl
  · rename_i hsize
    split
    · rename_i hbad
      obtain ⟨hlast, hne⟩ := hbad
      have hok := (h (by omega)).1
      rw [Decoder.fromHeader_of_header he (by omega), decide_eq_true hok, require_true, Dec.ok_bind,
        Decoder.fromData_of_data he (by omega), Decoder.fromCsum_of_csum he hlast.ge, decide_eq_false hne]
      rfl
    · exact Decoder.proceed_finish h0 (Decoder.checked_of_check h hsize ‹_›) he w

end

theorem Decoder.push_finish {d : Decoder} {ph : Phase} (hc : d.Checked) (hp : d.place = .inField ph) (y : Byte)
    (w : Memory) : (d.push y).finish w = (d.taking [y] (d.pos + 1)).fromHeader w := by
  rw [Decoder.push_eq_check]
  exact Decoder.check_finish (hc.taking hp y _) (Nat.succ_pos _) rfl w

/-- What holds of a DECODE in progress between two raw bytes. -/
structure Decoder.Sound (d : Decoder) : Prop where
  checked : d.Checked
  len : minFrame ≤ d.len
  pos : d.pos < d.len
  start : d.pos = 0 → d.bytes = []
  escaped : d.escaped = true → ∃ ph, d.place = .inField ph

/-- In the field region, what is left after a raw byte is what DecodeFrame does with it. -/
theorem Decoder.finish_inField {d : Decoder} {ph : Phase} (h : d.Sound) (hp : d.place = .inField ph) (w : Memory) :
    d.finish w = rawByte w d.pos >>= fun x => (d.takeRaw x).finish w := by
  obtain ⟨h0, -⟩ := Decoder.place_inField hp
  cases he : d.escaped with
  | true =>
    have htake : ∀ x, d.takeRaw x = d.push (x ^^^ escXor) := fun x => by simp [Decoder.takeRaw, hp, he]
    simp only [Decoder.finish, Nat.ne_of_gt h0, he, if_false, if_true, htake, Decoder.push_finish h.checked hp]
  | false =>
    rw [Decoder.finish_of_unescaped h0 he, Decoder.fromHeader_readField h.checked he hp, readField,
      decide_eq_true h.pos, require_true, Dec.ok_bind, bind_assoc]
    congr 1
    funext x
    by_cases hx : x = esc
    · have htake : d.takeRaw x = { d with pos := d.pos + 1, escaped := true }.proceed := by
        simp [Decoder.takeRaw, hp, he, hx]
      rw [htake]
      by_cases hlt : d.pos + 1 < d.len
      · simp [hx, hlt, Decoder.proceed, Taken.finish, Decoder.finish, bind_assoc, Decoder.taking]
      · have hplace : ({ d with pos := d.pos + 1, escaped := true } : Decoder).place = .inField ph := by
          rw [← hp]
          simp [Decoder.place, Nat.ne_of_gt h0, Decoder.size]
        simp [hx, hlt, Decoder.proceed, Taken.finish, Decoder.outOfData, hplace]
    · have htake : d.takeRaw x = d.push x := by simp [Decoder.takeRaw, hp, he, hx]
      rw [htake, Decoder.push_finish h.checked hp]
      simp [hx]

theorem Decoder.Sound.escaped_eq_false {d : Decoder} (h : d.Sound) (hp : ∀ ph, d.place ≠ .inField ph) :
    d.escaped = false :=
  Bool.eq_false_iff.2 fun he => (h.escaped he).elim fun ph => hp ph

/-- The leading delimiter leaves a decoder that has read no field byte. -/
theorem Decoder.Sound.started {d : Decoder} (h : d.Sound) (h0 : d.pos = 0) :
    d.escaped = false ∧ ({ d with pos := 1 } : Decoder).Checked := by
  refine ⟨h.escaped_eq_false fun ph => ?_, by constructor <;> simp [h.start h0]⟩
  rw [Decoder.place_leading.2 h0]
  exact nofun

/-- What is left of DecodeFrame is the raw byte at the cursor, and what is left after it. -/
theorem Decoder.finish_eq {d : Decoder} (h : d.Sound) (w : Memory) :
    d.finish w = rawByte w d.pos >>= fun x => (d.takeRaw x).finish w := by
  cases hp : d.place with
  | leading =>
    have h0 := Decoder.place_leading.1 hp
    obtain ⟨he, hc⟩ := h.started h0
    simp only [Decoder.finish, h0, if_true]
    congr 1
    funext x
    by_cases hx : x = delim
    · have hnext := Decoder.proceed_finish (d := { d with pos := 1 }) Nat.one_pos hc he w
      simp [Decoder.takeRaw, hp, hx, hnext]
    · simp [Decoder.takeRaw, hp, hx, Taken.finish]
  | inField ph => exact Decoder.finish_inField h hp w
  | trailing =>
    obtain ⟨h0, -⟩ := Decoder.place_trailing hp
    have he : d.escaped = false := h.escaped_eq_false (by simp [hp])
    rw [Decoder.finish_of_unescaped h0 he, Decoder.fromHeader_of_trailing h.checked he hp, Decoder.fromTrailer,
      decide_eq_true h.pos, require_true, Dec.ok_bind]
    congr 1
    funext x
    by_cases hx : x = delim <;> simp [Decoder.takeRaw, hp, hx, Taken.finish]

/-- A field byte that does not end the DECODE leaves a sound decoder. -/
theorem Decoder.push_sound {d d' : Decoder} {ph : Phase} {y : Byte} (h : d.Sound) (hp : d.place = .inField ph)
    (hm : d.push y = .more d') : d'.Sound := by
  obtain ⟨rfl, hlt⟩ := Decoder.push_more hm
  exact { checked := Decoder.checked_of_check_more (h.checked.taking hp y _) hm, len := h.len, pos := hlt,
          start := by simp, escaped := by simp }

theorem Decoder.takeRaw_sound {d d' : Decoder} {x : Byte} (h : d.Sound) (hm : d.takeRaw x = .more d') : d'.Sound := by
  unfold Decoder.takeRaw at hm
  split at hm
  · rename_i hp
    have h0 := Decoder.place_leading.1 hp
    obtain ⟨he, hc⟩ := h.started h0
    split at hm
    · obtain ⟨rfl, hlt⟩ := Decoder.proceed_more hm
      exact { checked := hc, len := h.len, pos := hlt, start := by simp, escaped := by simp [he] }
    · cases hm
  · split at hm <;> cases hm
  · rename_i ph hp
    split at hm
    · exact Decoder.push_sound h hp hm
    · split at hm
      · obtain ⟨rfl, hlt⟩ := Decoder.proceed_more hm
        refine { checked := ⟨h.checked.size, h.checked.csum⟩, len := h.len, pos := hlt, start := by simp,
                 escaped := fun _ => ⟨ph, ?_⟩ }
        obtain ⟨h0, -⟩ := Decoder.place_inField hp
        rw [← hp]
        simp [Decoder.place, Nat.ne_of_gt h0, Decoder.size]
      · exact Decoder.push_sound h hp hm

/-! ### From the first raw byte to the last -/

/-- The decoder with which a DECODE starts. -/
def Decoder.start (m : Mode) (len : Nat) : Decoder := ⟨m, len, 0, false, []⟩

theorem Decoder.start_sound (m : Mode) {len : Nat} (h : minFrame ≤ len) : (Decoder.start m len).Sound where
  checked := by constructor <;> simp [Decoder.start]
  len := h
  pos := Nat.lt_of_lt_of_le (show 0 < minFrame by decide) h
  start := fun _ => rfl
  escaped := by simp [Decoder.start]

/-- With the header and the data read, what is left is the checksum and the trailing delimiter. -/
theorem Decoder.fromCsum_eq {m : Mode} {len : Nat} {a b c d : Byte} {q : List Byte} (hq : q.length = (be16 c d).toNat)
    (pos : Nat) (w : Memory) :
    (⟨m, len, pos, false, [a, b, c, d] ++ q⟩ : Decoder).fromCsum w = (do
      let (s, pos) ← readFields .csum w len 2 pos
      let wire := be16 (s.getD 0 0#8) (s.getD 1 0#8)
      require (wire = checksum m (be16 a b) (be16 c d) q) .checksumMismatch
      require (pos < len) .framingError
      let last ← rawByte w pos
      require (last = delim) .framingError
      .ok ⟨⟨be16 a b, be16 c d, q⟩, wire, pos + 1⟩) := by
  have hleft : 6 + (be16 c d).toNat - ([a, b, c, d] ++ q).length = 2 := by
    simp only [List.length_append, List.length_cons, List.length_nil, hq]
    omega
  have hsize : (⟨m, len, pos, false, [a, b, c, d] ++ q⟩ : Decoder).size = be16 c d := rfl
  simp only [Decoder.fromCsum, Decoder.readMore, hsize, hleft]
  cases hcsum : readFields .csum w len 2 pos with
  | error e => rfl
  | ok z =>
    obtain ⟨r, p⟩ := z
    obtain ⟨x, y, rfl⟩ := List.length_eq_two.1 (readFields_ok hcsum).1
    obtain ⟨ht, hz, hd, hc, -⟩ := Decoder.fields_of_bytes (d := ⟨m, len, p, false, [a, b, c, d] ++ q ++ [x, y]⟩)
      (t := be16 a b) (c := be16 x y) hq (by simp)
    simp only [Dec.ok_bind, Decoder.taking, Decoder.fromTrailer, Decoder.expected, ht, hz, hd, hc]
    rfl

/-- With no field byte read, what is left is all of the fields and the trailing delimiter. -/
theorem Decoder.fromHeader_eq (m : Mode) (w : Memory) (len : Nat) :
    (⟨m, len, 1, false, []⟩ : Decoder).fromHeader w = (do
      let (h, pos) ← readFields .hdr w len 4 1
      let t := be16 (h.getD 0 0#8) (h.getD 1 0#8)
      let s := be16 (h.getD 2 0#8) (h.getD 3 0#8)
      require (s.toNat ≤ len - 8) .dataUnderflow
      let (d, pos) ← readFields .data w len s.toNat pos
      let (c, pos) ← readFields .csum w len 2 pos
      let wire := be16 (c.getD 0 0#8) (c.getD 1 0#8)
      require (wire = checksum m t s d) .checksumMismatch
      require (pos < len) .framingError
      let last ← rawByte w pos
      require (last = delim) .framingError
      .ok ⟨⟨t, s, d⟩, wire, pos + 1⟩) := by
  simp only [Decoder.fromHeader, Decoder.readMore, List.length_nil, Nat.sub_zero]
  cases hhdr : readFields .hdr w len 4 1 with
  | error e => rfl
  | ok y =>
    obtain ⟨q, p⟩ := y
    obtain ⟨a, b, c, d, rfl⟩ := List.length_eq_four.1 (readFields_ok hhdr).1
    have hsize : (Decoder.taking ⟨m, len, 1, false, []⟩ [a, b, c, d] p).size = be16 c d := rfl
    simp only [Dec.ok_bind, hsize, Decoder.fromData, Decoder.readMore, Decoder.taking_bytes, Decoder.taking_len,
      Decoder.taking_pos, List.nil_append, List.length_cons, List.length_nil, Nat.add_sub_cancel_left,
      List.getD_cons_zero, List.getD_cons_succ]
    congr 1
    funext _
    cases hdata : readFields .data w len (be16 c d).toNat p with
    | error e => rfl
    | ok y =>
      obtain ⟨q, p'⟩ := y
      have hq := (readFields_ok hdata).1
      exact Decoder.fromCsum_eq hq p' w

/-- At its start, what is left of DecodeFrame is all of it. -/
theorem decodeFrame_eq_finish (m : Mode) (w : Memory) {len : Nat} (h : minFrame ≤ len) :
    decodeFrame m w len = (Decoder.start m len).finish w := by
  have h8 : 8 ≤ len := h
  rw [decodeFrame_eq, decide_eq_true h8, require_true, Dec.ok_bind]
  simp only [Decoder.finish, Decoder.start, if_true, Decoder.fromHeader_eq]

/-! ### Steps of a DECODE in progress -/

/-- How a DECODE ends with the result of DecodeFrame (R191, R192, R31). -/
def State.endDecode (s : State) : Dec Decoded → Outcome
  | .ok r => .next (s.commitDecoded r)
  | .error (.error e) => .next (s.complete e.code)
  | .error .unwritten => .fault .unwrittenRead

theorem execDecode_eq {s : State} {l : Wide} (h : s.wLen = .written l) :
    execDecode s = s.endDecode (decodeFrame s.mode s.wBuf l.toNat) := by
  simp only [execDecode, h, Reg.value?, orFault_some]
  rfl

theorem Decoder.nextItem_rawByte? (d : Decoder) (b : Byte) : (d.nextItem b).rawByte? = some b := by
  unfold Decoder.nextItem
  split
  · rename_i h
    rw [h.1]
    rfl
  · split
    · rename_i h
      rw [h]
      rfl
    · rfl

section
variable {s : State} (hf : s.faultMark = false) (hr : s.refusalMark = false)
include hf hr

theorem step_decoding (d : Decoder) {b : Byte} (hb : s.wBuf.read d.pos = some b) :
    step (s.setWork (.decoding d)) = (s.setWork (.decoding d)).feed d [b] := by
  have hfetch : fetch (s.setWork (.decoding d)) = .next (some (d.nextItem b, s.setWork (.decoding d))) := by
    simp [fetch, hf, hr, hb]
  rw [step, hfetch]
  exact exec_rawByte rfl (d.nextItem_rawByte? b)

theorem step_decoding_unwritten (d : Decoder) (hb : s.wBuf.read d.pos = none) :
    step (s.setWork (.decoding d)) = .fault .unwrittenRead := by
  simp [step, fetch, hf, hr, hb]

/-- The items of a DECODE in progress end as what is left of DecodeFrame does: each step takes one raw byte, and there are
no more of them than the length leaves. -/
theorem runWork_decoding :
    ∀ (fuel : Nat) (d : Decoder), d.Sound → d.len ≤ d.pos + fuel →
      runWork fuel (s.setWork (.decoding d)) = (s.setWork .idle).endDecode (d.finish s.wBuf) := by
  intro fuel
  induction fuel with
  | zero => intro d h hfuel; exact absurd h.pos (by omega)
  | succ fuel ih =>
    intro d h hfuel
    rw [Decoder.finish_eq h]
    cases hb : s.wBuf.read d.pos with
    | none => simp [runWork, step_decoding_unwritten hf hr d hb, rawByte, hb, State.endDecode]
    | some b =>
      have hstep := step_decoding hf hr d hb
      rw [rawByte_ok.2 hb, Dec.ok_bind]
      cases ht : d.takeRaw b with
      | more d' =>
        obtain ⟨-, hlen, hpos, -⟩ := Decoder.takeRaw_more ht
        simp only [State.feed, ht, State.setWork_setWork] at hstep
        rw [runWork_succ (by simp) hstep, ih d' (Decoder.takeRaw_sound h ht) (by omega)]
        rfl
      | done r =>
        simp only [State.feed, ht, State.setWork_setWork] at hstep
        rw [runWork_succ (by simp) hstep, runWork_idle _ (by simp)]
        rfl
      | failed e =>
        simp only [State.feed, ht, State.setWork_setWork] at hstep
        rw [runWork_succ (by simp) hstep, runWork_idle _ (by simp)]
        rfl

end

/-- Settles O58: with W_LEN below 8 both are over at once; else the items end as DecodeFrame from its start does. -/
theorem decodeByItemsIsDecode : Obligations.DecodeByItemsIsDecode := by
  intro s t l hs hl hbegin
  simp only [State.beginDecode, hl, Reg.value?, orFault_some] at hbegin
  show runWork l.toNat t = execDecode s
  rw [execDecode_eq hl]
  by_cases hlt : l.toNat < minFrame
  · rw [if_pos hlt] at hbegin
    obtain rfl := Host.Outcome.next.inj hbegin
    have hshort : decodeFrame s.mode s.wBuf l.toNat = .error (.error .tooShort) := by
      simp [decodeFrame, Nat.not_le.2 hlt]
    rw [hshort]
    exact runWork_idle _ hs.work
  · rw [if_neg hlt] at hbegin
    obtain rfl := Host.Outcome.next.inj hbegin
    have hmin := Nat.not_lt.1 hlt
    have hrun := runWork_decoding hs.faultMark hs.refusalMark l.toNat _ (Decoder.start_sound s.mode hmin)
      (Nat.le_add_left _ _)
    rwa [hs.setWork_idle, ← decodeFrame_eq_finish s.mode s.wBuf hmin] at hrun

end Sys2Proof.Machine
end

section
/-! Who writes MODE and STATUS (O17, O18), where an item has its place (O57), and what a step runs while a codec command is
in progress (O7). -/

namespace Sys2Proof.Machine

/-! ### Who writes what (10_state.md R22, R23) -/

theorem Effect.mode {i : Instr} {s t : State} (h : Effect i s t) (hi : ∀ m, i ≠ .setmode m) : t.mode = s.mode := by
  cases h with
  | setmode m => exact absurd rfl (hi m)
  | _ => rfl

/-- Settles O17: SETMODE's is the one effect that writes MODE. -/
theorem onlySetmodeWritesMode : Obligations.OnlySetmodeWritesMode :=
  fun _ _ _ h hi => (exec_effect h).mode hi

/-- STATUS is written by a codec command, or by the last item of one that is in progress. -/
theorem Effect.status {i : Instr} {s t : State} (h : Effect i s t) (hw : s.work = .idle) (hi : i.isCodec = false) :
    t.status = s.status := by
  cases h with
  | csum | encoded | encodeFailed | decoded | decodeFailed => exact Bool.noConfusion hi
  | takesLast _ hd => exact nomatch hw.symm.trans hd
  | takeFails _ _ hd => exact nomatch hw.symm.trans hd
  | sendsLast _ hd => exact nomatch hw.symm.trans hd
  | _ => rfl

/-- Settles O18: the effects that write STATUS are those of a codec command and of an item that ends one in progress. -/
theorem onlyCodecCommandsWriteStatus : Obligations.OnlyCodecCommandsWriteStatus :=
  fun _ _ _ h hw hi => (exec_effect h).status hw hi

/-! ### Items with no codec command in progress (log 7) -/

theorem wireItem_idle {s : State} (hw : s.work = .idle) (raw : List Byte) (send : Encoder → Outcome) :
    wireItem raw send s = .refused .noCommandInProgress := by
  simp [wireItem, hw]

theorem typeItem_idle {s : State} (hw : s.work = .idle) (v : Half) : typeItem v s = .refused .noCommandInProgress := by
  simp [typeItem, hw]

/-- Settles O57: the four wire items are one operation, the labels another, and both refuse with no command in progress. -/
theorem itemsNeedACommandInProgress : Obligations.ItemsNeedACommandInProgress :=
  fun s _ l hw => ⟨wireItem_idle hw _ _, wireItem_idle hw _ _, wireItem_idle hw _ _, wireItem_idle hw _ _,
    (exec_frameType l s).trans (typeItem_idle hw _)⟩

/-! ### The item at the cursor of a DECODE in progress (R76) -/

theorem Decoder.nextItem_delimiter {d : Decoder} (h : d.place = .leading ∨ d.place = .trailing) :
    d.nextItem delim = .wireDelim :=
  if_pos ⟨rfl, h⟩

theorem Decoder.nextItem_inField {d : Decoder} {ph : Phase} (h : d.place = .inField ph) (b : Byte) :
    d.nextItem b = if b = esc then .wireEsc else .wireLit b := by
  simp [Decoder.nextItem, h]

theorem decode_wireByte_field (b : Byte) :
    decode (.wireByte .field b) = .ok (if b = esc then .wireEsc else .wireLit b) :=
  (apply_ite Except.ok (b = esc) _ _).symm

/-- Settles O7: with no mark set, fetch gives the next item of the command in progress; of a DECODE, the class that R76
gives to the raw byte at its cursor. -/
theorem stepRunsTheNextItem : Obligations.StepRunsTheNextItem := by
  intro s hf hr
  refine ⟨fun d b hw hb => ⟨?_, fun hp hdelim => ?_, fun ph hp => ?_⟩, fun d hw hb => ?_, fun e hw => ?_⟩
  · simp [step, fetch, hf, hr, hw, hb]
  · subst hdelim
    exact congrArg Except.ok (Decoder.nextItem_delimiter hp).symm
  · rw [decode_wireByte_field, Decoder.nextItem_inField hp]
  · simp [step, fetch, hf, hr, hw, hb]
  · simp [step, fetch, hf, hr, hw]

end Sys2Proof.Machine
end

section
/-! The frame the frame registers hold (10_state.md R24 to R28, R31): O24 and O25. -/

namespace Sys2Proof.Machine

/-- A run of bytes cannot be read exactly when one of them is unwritten. -/
theorem Memory.readFrom_eq_none (m : Memory) :
    ∀ n k : Nat, Memory.readFrom m k n = none ↔ ∃ j < n, Memory.read m (k + j) = none := by
  intro n
  induction n with
  | zero => intro k; simp [Memory.readFrom]
  | succ n ih =>
    intro k
    have hstep : Memory.readFrom m k (n + 1) = none ↔ Memory.read m k = none ∨ Memory.readFrom m (k + 1) n = none := by
      simp only [Memory.readFrom]
      cases Memory.read m k <;> cases Memory.readFrom m (k + 1) n <;> simp
    rw [hstep, ih, Nat.exists_lt_succ_left]
    simp [Nat.add_assoc, Nat.add_comm 1]

theorem State.frame?_eq_some {s : State} {t z : Half} {d : List Byte} :
    s.frame? = some ⟨t, z, d⟩ ↔
      s.fType = .written t ∧ s.fSize = .written z ∧ d.length = z.toNat ∧ Holds s.fData 0 d := by
  rw [← Memory.readFrom_eq_some]
  unfold State.frame?
  cases s.fType with
  | unwritten => simp
  | written t' =>
    cases s.fSize with
    | unwritten => simp
    | written z' =>
      simp only [Option.map_eq_some_iff, Frame.mk.injEq, Reg.written.injEq]
      constructor
      · rintro ⟨_, hd, rfl, rfl, rfl⟩
        exact ⟨rfl, rfl, hd⟩
      · rintro ⟨rfl, rfl, hd⟩
        exact ⟨d, hd, rfl, rfl, rfl⟩

theorem State.frame?_eq_none {s : State} :
    s.frame? = none ↔ s.fType = .unwritten ∨ s.fSize = .unwritten ∨
      ∃ z, s.fSize = .written z ∧ ∃ k < z.toNat, s.fData.read k = none := by
  unfold State.frame?
  cases s.fType with
  | unwritten => simp
  | written t =>
    cases s.fSize with
    | unwritten => simp
    | written z => simp [Memory.readFrom_eq_none]

/-- Settles O24: reading F_DATA[0..F_SIZE) gives exactly the bytes that stand there, and fails at an unwritten one. -/
theorem frameIsReadFromItsRegisters : Obligations.FrameIsReadFromItsRegisters :=
  fun _ => ⟨fun _ _ _ => State.frame?_eq_some, State.frame?_eq_none⟩

theorem holds_congr {m m' : Memory} {k : Nat} {bs : List Byte} (h : ∀ j < bs.length, m'.read (k + j) = m.read (k + j)) :
    Holds m' k bs ↔ Holds m k bs :=
  forall₂_congr fun j hj => by rw [h j hj]

/-- Settles O25: the two states hold the same frames, as the registers and bytes that O24 names are the same. -/
theorem frameIdentityIsTypeSizeData : Obligations.FrameIdentityIsTypeSizeData := by
  intro s t htype hsize hdata
  refine Option.ext fun ⟨ty, z, d⟩ => ?_
  rw [State.frame?_eq_some, State.frame?_eq_some, htype, hsize]
  refine and_congr_right fun _ => and_congr_right fun hz => and_congr_right fun hlen => holds_congr fun j hj => ?_
  rw [Nat.zero_add]
  exact hdata z hz j (hlen ▸ hj)

end Sys2Proof.Machine
end

section
/-! ReadField on every spelling (O27), and field bytes in a row (O60). -/

namespace Sys2Proof.Machine

/-! ### One field byte (42_stuffing.md R143, R144, R146) -/

/-- R146: only in the data does running out mean DataUnderflow. -/
theorem outOfData_eq (ph : Phase) : outOfData ph = if ph = .data then .dataUnderflow else .framingError := by
  cases ph <;> rfl

section
variable (ph : Phase) {w : Memory} {len pos : Nat}

theorem readField_outOfData (w : Memory) (h : len ≤ pos) : readField ph w len pos = .error (.error (outOfData ph)) := by
  simp [readField, Nat.not_lt.2 h]

theorem readField_unwritten (h : pos < len) (hx : w.read pos = none) : readField ph w len pos = .error .unwritten := by
  simp [readField, h, rawByte, hx]

theorem readField_literal {x : Byte} (h : pos < len) (hx : w.read pos = some x) (hesc : x ≠ esc) :
    readField ph w len pos = .ok (x, pos + 1) := by
  simp [readField, h, rawByte, hx, hesc]

/-- After an escape byte, what the raw byte behind it decides. -/
theorem readField_escaped (h : pos < len) (hx : w.read pos = some esc) :
    readField ph w len pos = (do
      require (pos + 1 < len) (outOfData ph)
      let y ← rawByte w (pos + 1)
      .ok (y ^^^ escXor, pos + 2)) := by
  simp [readField, h, rawByte_ok.2 hx]

theorem readField_pair_outOfData (h : pos < len) (hx : w.read pos = some esc) (h' : len ≤ pos + 1) :
    readField ph w len pos = .error (.error (outOfData ph)) := by
  simp [readField_escaped ph h hx, Nat.not_lt.2 h']

theorem readField_pair_unwritten (h : pos + 1 < len) (hx : w.read pos = some esc) (hy : w.read (pos + 1) = none) :
    readField ph w len pos = .error .unwritten := by
  simp [readField_escaped ph (Nat.lt_of_succ_lt h) hx, h, rawByte, hy]

theorem readField_pair {y : Byte} (h : pos + 1 < len) (hx : w.read pos = some esc) (hy : w.read (pos + 1) = some y) :
    readField ph w len pos = .ok (y ^^^ escXor, pos + 2) := by
  simp [readField_escaped ph (Nat.lt_of_succ_lt h) hx, h, rawByte, hy]

end

/-- Settles O27, a spelling or a stop at a time. -/
theorem readFieldReadsEverySpelling : Obligations.ReadFieldReadsEverySpelling := by
  intro ph w len pos
  exact ⟨readField_outOfData ph w, readField_unwritten ph, fun _ => readField_literal ph,
    fun h hx => ⟨readField_pair_outOfData ph h hx, fun h' => readField_pair_unwritten ph h' hx,
      fun _ h' => readField_pair ph h' hx⟩, outOfData_eq ph⟩

/-! ### Field bytes in a row (R146, R196) -/

/-- Field bytes that stop ran out of data, or they met an unwritten byte below the length. -/
theorem readFields_error {ph : Phase} {w : Memory} {len : Nat} {e : DecodeStop} :
    ∀ {n pos : Nat}, readFields ph w len n pos = .error e →
      e = .error (outOfData ph) ∨ (e = .unwritten ∧ ∃ k, pos ≤ k ∧ k < len ∧ w.read k = none) := by
  intro n
  induction n with
  | zero => intro pos h; cases h
  | succ n ih =>
    intro pos h
    simp only [readFields] at h
    cases hfirst : readField ph w len pos with
    | error e' =>
      obtain rfl : e' = e := by simpa [hfirst] using h
      exact readField_error hfirst
    | ok x =>
      obtain ⟨b, p⟩ := x
      have hle : pos ≤ p := by rcases readField_ok hfirst with ⟨hp, -⟩ | ⟨hp, -⟩ <;> omega
      cases hrest : readFields ph w len n p with
      | error e' =>
        obtain rfl : e' = e := by simpa [hfirst, hrest] using h
        exact (ih hrest).imp_right fun ⟨he, k, hk, hlen⟩ => ⟨he, k, hle.trans hk, hlen⟩
      | ok y => simp [hfirst, hrest] at h

/-- With all bytes written, more field bytes than there are raw bytes left run out of data. -/
theorem readFields_outOfData {ph : Phase} {w : Memory} {len n pos : Nat}
    (hw : ∀ k, pos ≤ k → k < len → w.read k ≠ none) (hn : 0 < n) (hlen : len < pos + n) :
    readFields ph w len n pos = .error (.error (outOfData ph)) := by
  cases h : readFields ph w len n pos with
  | ok x =>
    obtain ⟨-, hp, hle⟩ := readFields_ok (q := x.1) (p := x.2) h
    omega
  | error e =>
    rcases readFields_error h with rfl | ⟨-, k, hk, hklen, hnone⟩
    · rfl
    · exact absurd hnone (hw k hk hklen)

/-- Field bytes in a row stop with the first that stops. -/
theorem readFields_stop {ph : Phase} {w : Memory} {len a n pos p : Nat} {q : List Byte} {e : DecodeStop} (ha : a < n)
    (hq : readFields ph w len a pos = .ok (q, p)) (he : readField ph w len p = .error e) :
    readFields ph w len n pos = .error e := by
  obtain ⟨b, rfl⟩ := Nat.exists_eq_add_of_lt ha
  have hrest : readFields ph w len (b + 1) p = .error e := by simp [readFields, he]
  rw [Nat.add_assoc, readFields_add, hq, Dec.ok_bind, hrest, Dec.error_bind]

theorem readFields_congr {w w' : Memory} {len : Nat} (h : ∀ k < len, w'.read k = w.read k) (ph : Phase) :
    ∀ n pos : Nat, readFields ph w' len n pos = readFields ph w len n pos := by
  intro n
  induction n with
  | zero => intro pos; rfl
  | succ n ih => intro pos; simp only [readFields, readField_congr h, ih]

/-- Settles O60: how field bytes in a row stop, and that they depend on no byte at or beyond the length. -/
theorem fieldsRunOutByPhase : Obligations.FieldsRunOutByPhase := by
  rintro ph w len n pos _ rfl
  rw [← outOfData_eq]
  exact ⟨fun _ => readFields_error, readFields_outOfData, fun _ _ _ _ => readFields_stop,
    fun _ hw => readFields_congr hw ph n pos⟩

end Sys2Proof.Machine
end

section
/-! DECODE on a buffer with unwritten bytes (O38): DecodeFrame (R180) stops at an unwritten byte only where one is below the
length, it reads every byte of a frame that it accepts, and where some of these are missing it stops or accepts the same. -/

namespace Sys2Proof.Machine

/-! ### How DecodeFrame stops -/

/-- If x stops, then for a reason that P allows. -/
def Dec.StopsOnly {α : Type} (P : DecodeStop → Prop) (x : Dec α) : Prop := ∀ e, x = .error e → P e

namespace Dec.StopsOnly

variable {P : DecodeStop → Prop}

theorem ok {α : Type} (a : α) : Dec.StopsOnly P (.ok a : Dec α) := nofun

theorem bind {α β : Type} {x : Dec α} {k : α → Dec β} (hx : Dec.StopsOnly P x)
    (hk : ∀ a, x = .ok a → Dec.StopsOnly P (k a)) : Dec.StopsOnly P (x >>= k) := by
  intro e h
  cases x with
  | ok a => exact hk a rfl e h
  | error c => exact hx e (by simpa using h)

end Dec.StopsOnly

/-- The ways DecodeFrame may stop: an error of R194, or an unwritten byte below the length (R31). -/
def DecodeStop.Allowed (w : Memory) (len : Nat) : DecodeStop → Prop
  | .error c => c ≠ .allocationFailure
  | .unwritten => ∃ k < len, w.read k = none

theorem require_stopsOnly {w : Memory} {len : Nat} {c : CodecError} (hc : c ≠ .allocationFailure) (ok : Bool) :
    Dec.StopsOnly (DecodeStop.Allowed w len) (require ok c) := by
  intro e h
  cases ok with
  | true => cases h
  | false => cases h; exact hc

theorem rawByte_stopsOnly {w : Memory} {len pos : Nat} (hpos : pos < len) :
    Dec.StopsOnly (DecodeStop.Allowed w len) (rawByte w pos) := by
  intro e h
  cases hx : w.read pos with
  | none =>
    obtain rfl : DecodeStop.unwritten = e := by simpa [rawByte, hx] using h
    exact ⟨pos, hpos, hx⟩
  | some x => simp [rawByte, hx] at h

theorem readFields_stopsOnly (ph : Phase) (w : Memory) (len n pos : Nat) :
    Dec.StopsOnly (DecodeStop.Allowed w len) (readFields ph w len n pos) := by
  intro e h
  rcases readFields_error h with rfl | ⟨rfl, k, -, hk, hnone⟩
  · cases ph <;> exact nofun
  · exact ⟨k, hk, hnone⟩

theorem readHalf_stopsOnly (ph : Phase) (w : Memory) (len pos : Nat) :
    Dec.StopsOnly (DecodeStop.Allowed w len) (readHalf ph w len pos) := by
  rw [readHalf_eq]
  exact (readFields_stopsOnly ph w len 2 pos).bind fun _ _ => .ok _

theorem decodeFrame_stopsOnly (m : Mode) (w : Memory) (len : Nat) :
    Dec.StopsOnly (DecodeStop.Allowed w len) (decodeFrame m w len) := by
  unfold decodeFrame
  refine (require_stopsOnly (by decide) _).bind fun _ hmin => ?_
  have hpos : 0 < len := Nat.lt_of_lt_of_le (by decide) (of_decide_eq_true (require_ok hmin))
  refine (rawByte_stopsOnly hpos).bind fun _ _ => ?_
  refine (require_stopsOnly (by decide) _).bind fun _ _ => ?_
  refine (readHalf_stopsOnly _ _ _ _).bind fun _ _ => ?_
  refine (readHalf_stopsOnly _ _ _ _).bind fun _ _ => ?_
  refine (require_stopsOnly (by decide) _).bind fun _ _ => ?_
  refine (readFields_stopsOnly _ _ _ _ _).bind fun _ _ => ?_
  refine (readHalf_stopsOnly _ _ _ _).bind fun _ _ => ?_
  refine (require_stopsOnly (by decide) _).bind fun _ _ => ?_
  refine (require_stopsOnly (by decide) _).bind fun _ hlast => ?_
  refine (rawByte_stopsOnly (of_decide_eq_true (require_ok hlast))).bind fun _ _ => ?_
  exact (require_stopsOnly (by decide) _).bind fun _ _ => .ok _

/-! ### The bytes of an accepted frame -/

/-- A big-endian field that was read is two field bytes in a row. -/
theorem readHalf_readFields {ph : Phase} {w : Memory} {len pos p : Nat} {v : Half}
    (h : readHalf ph w len pos = .ok (v, p)) :
    ∃ q, readFields ph w len 2 pos = .ok (q, p) ∧ v = be16 (q.getD 0 0#8) (q.getD 1 0#8) := by
  rw [readHalf_eq] at h
  obtain ⟨⟨q, p'⟩, hq, h⟩ := Dec.bind_ok h
  obtain ⟨rfl, rfl⟩ : be16 (q.getD 0 0#8) (q.getD 1 0#8) = v ∧ p' = p := by simpa using h
  exact ⟨q, hq, rfl⟩

/-- The bytes from k up to n are all written. -/
def Memory.Written (w : Memory) (k n : Nat) : Prop := ∀ j, k ≤ j → j < n → w.read j ≠ none

theorem Memory.Written.trans {w : Memory} {k m n : Nat} (hkm : w.Written k m) (hmn : w.Written m n) : w.Written k n :=
  fun j hk hn => (Nat.lt_or_ge j m).elim (hkm j hk) fun hm => hmn j hm hn

theorem Memory.written_one {w : Memory} {k : Nat} {b : Byte} (h : w.read k = some b) : w.Written k (k + 1) := by
  intro j hk hn
  obtain rfl : j = k := by omega
  simp [h]

theorem readField_written {ph : Phase} {w : Memory} {len pos p : Nat} {b : Byte}
    (h : readField ph w len pos = .ok (b, p)) : w.Written pos p := by
  rcases readField_ok h with ⟨rfl, -, -, hx⟩ | ⟨rfl, -, hx, hy⟩
  · exact Memory.written_one hx
  · exact (Memory.written_one hx).trans (Memory.written_one hy)

theorem readFields_written {ph : Phase} {w : Memory} {len : Nat} :
    ∀ {n pos p : Nat} {q : List Byte}, readFields ph w len n pos = .ok (q, p) → w.Written pos p := by
  intro n
  induction n with
  | zero =>
    intro pos p q h
    obtain ⟨-, rfl⟩ : [] = q ∧ pos = p := by simpa [readFields] using h
    exact fun j hj hj' => absurd hj' (Nat.not_lt.2 hj)
  | succ n ih =>
    intro pos p q h
    simp only [readFields] at h
    obtain ⟨⟨b, p1⟩, hfirst, h⟩ := Dec.bind_ok h
    obtain ⟨⟨bs, p2⟩, hrest, h⟩ := Dec.bind_ok h
    obtain ⟨-, rfl⟩ : b :: bs = q ∧ p2 = p := by simpa using h
    exact (readField_written hfirst).trans (ih hrest)

theorem readHalf_written {ph : Phase} {w : Memory} {len pos p : Nat} {v : Half}
    (h : readHalf ph w len pos = .ok (v, p)) : w.Written pos p := by
  obtain ⟨q, hq, -⟩ := readHalf_readFields h
  exact readFields_written hq

/-- DecodeFrame reads every byte up to the trailing delimiter of a frame that it accepts. -/
theorem decodeFrame_written {m : Mode} {w : Memory} {len : Nat} {r : Decoded} (h : decodeFrame m w len = .ok r) :
    w.Written 0 r.used := by
  obtain ⟨-, hfirst, p1, p2, p3, p4, htype, hsize, -, hdata, hcsum, -, -, hlast, hused⟩ := decodeFrame_ok h
  rw [hused]
  exact (Memory.written_one hfirst).trans <| (readHalf_written htype).trans <| (readHalf_written hsize).trans <|
    (readFields_written hdata).trans <| (readHalf_written hcsum).trans <| Memory.written_one hlast

/-! ### An accepted frame of which bytes are missing -/

/-- Below n, the buffer w' is w with some bytes unwritten. -/
def Memory.PartOf (w' w : Memory) (n : Nat) : Prop := ∀ j < n, w'.read j = none ∨ w'.read j = w.read j

theorem Memory.PartOf.mono {w' w : Memory} {k n : Nat} (h : w'.PartOf w n) (hk : k ≤ n) : w'.PartOf w k :=
  fun j hj => h j (Nat.lt_of_lt_of_le hj hk)

/-- x gives a, or it meets an unwritten byte. -/
def Dec.OrUnwritten {α : Type} (x : Dec α) (a : α) : Prop := x = .error .unwritten ∨ x = .ok a

theorem Dec.OrUnwritten.bind {α β : Type} {x : Dec α} {k : α → Dec β} {a : α} {b : β} (hx : Dec.OrUnwritten x a)
    (hk : Dec.OrUnwritten (k a) b) : Dec.OrUnwritten (x >>= k) b := by
  rcases hx with rfl | rfl
  · exact .inl rfl
  · exact hk

theorem require_orUnwritten {ok : Bool} (h : ok = true) (c : CodecError) : Dec.OrUnwritten (require ok c) () :=
  .inr (h ▸ rfl)

section
variable {w w' : Memory}

theorem rawByte_orUnwritten {pos : Nat} {x : Byte} (hx : w.read pos = some x) (hw : w'.PartOf w (pos + 1)) :
    Dec.OrUnwritten (rawByte w' pos) x := by
  rcases hw pos (Nat.lt_succ_self pos) with hnone | hsame
  · exact .inl (by simp [rawByte, hnone])
  · exact .inr (rawByte_ok.2 (hsame.trans hx))

variable {ph : Phase} {len : Nat}

theorem readField_orUnwritten {pos p : Nat} {b : Byte} (h : readField ph w len pos = .ok (b, p)) (hw : w'.PartOf w p) :
    Dec.OrUnwritten (readField ph w' len pos) (b, p) := by
  rcases readField_ok h with ⟨rfl, hlen, hesc, hx⟩ | ⟨rfl, hlen, hx, hy⟩
  · rcases hw pos (by omega) with hnone | hsame
    · exact .inl (readField_unwritten ph hlen hnone)
    · exact .inr (readField_literal ph hlen (hsame.trans hx) hesc)
  · rcases hw pos (by omega) with hnone | hsame
    · exact .inl (readField_unwritten ph (by omega) hnone)
    · rcases hw (pos + 1) (by omega) with hnone' | hsame'
      · exact .inl (readField_pair_unwritten ph hlen (hsame.trans hx) hnone')
      · have hpair := readField_pair ph hlen (hsame.trans hx) (hsame'.trans hy)
        rw [BitVec.xor_assoc, BitVec.xor_self, BitVec.xor_zero] at hpair
        exact .inr hpair

theorem readFields_orUnwritten : ∀ {n pos p : Nat} {q : List Byte}, readFields ph w len n pos = .ok (q, p) →
    w'.PartOf w p → Dec.OrUnwritten (readFields ph w' len n pos) (q, p) := by
  intro n
  induction n with
  | zero => intro pos p q h _; exact .inr h
  | succ n ih =>
    intro pos p q h hw
    simp only [readFields] at h ⊢
    obtain ⟨⟨b, p1⟩, hfirst, h⟩ := Dec.bind_ok h
    obtain ⟨⟨bs, p2⟩, hrest, h⟩ := Dec.bind_ok h
    obtain ⟨rfl, rfl⟩ : b :: bs = q ∧ p2 = p := by simpa using h
    have hle : p1 ≤ p2 := by
      obtain ⟨-, hn, -⟩ := readFields_ok hrest
      omega
    exact (readField_orUnwritten hfirst (hw.mono hle)).bind ((ih hrest hw).bind (.inr rfl))

theorem readHalf_orUnwritten {pos p : Nat} {v : Half} (h : readHalf ph w len pos = .ok (v, p)) (hw : w'.PartOf w p) :
    Dec.OrUnwritten (readHalf ph w' len pos) (v, p) := by
  obtain ⟨q, hq, rfl⟩ := readHalf_readFields h
  rw [readHalf_eq]
  exact (readFields_orUnwritten hq hw).bind (.inr rfl)

/-- Where bytes of an accepted frame are missing, DecodeFrame meets one of them or accepts the same frame. -/
theorem decodeFrame_orUnwritten {m : Mode} {r : Decoded} (h : decodeFrame m w len = .ok r) (hw : w'.PartOf w r.used) :
    Dec.OrUnwritten (decodeFrame m w' len) r := by
  obtain ⟨hlen, hfirst, p1, p2, p3, p4, htype, hsize, hfit, hdata, hcsum, hmatch, hroom, hlast, hused⟩ := decodeFrame_ok h
  obtain ⟨f, c, used⟩ := r
  obtain rfl : used = p4 + 1 := hused
  obtain ⟨_, hq1, -⟩ := readHalf_readFields htype
  obtain ⟨_, hq2, -⟩ := readHalf_readFields hsize
  obtain ⟨_, hq4, -⟩ := readHalf_readFields hcsum
  obtain ⟨-, h1, -⟩ := readFields_ok hq1
  obtain ⟨-, h2, -⟩ := readFields_ok hq2
  obtain ⟨-, h3, -⟩ := readFields_ok hdata
  obtain ⟨-, h4, -⟩ := readFields_ok hq4
  have part : ∀ {p}, p ≤ p4 + 1 → w'.PartOf w p := fun hp => hw.mono hp
  unfold decodeFrame
  refine (require_orUnwritten (decide_eq_true hlen) _).bind ?_
  refine (rawByte_orUnwritten hfirst (part (by omega))).bind ?_
  refine (require_orUnwritten (decide_eq_true rfl) _).bind ?_
  refine (readHalf_orUnwritten htype (part (by omega))).bind ?_
  refine (readHalf_orUnwritten hsize (part (by omega))).bind ?_
  refine (require_orUnwritten (decide_eq_true hfit) _).bind ?_
  refine (readFields_orUnwritten hdata (part (by omega))).bind ?_
  refine (readHalf_orUnwritten hcsum (part (by omega))).bind ?_
  refine (require_orUnwritten (decide_eq_true hmatch) _).bind ?_
  refine (require_orUnwritten (decide_eq_true hroom) _).bind ?_
  refine (rawByte_orUnwritten hlast (part (by omega))).bind ?_
  exact (require_orUnwritten (decide_eq_true rfl) _).bind (.inr rfl)

/-- Where a byte of an accepted frame is missing, DecodeFrame meets an unwritten byte. -/
theorem decodeFrame_missing {m : Mode} {r : Decoded} {k : Nat} (h : decodeFrame m w len = .ok r)
    (hw : w'.PartOf w r.used) (hk : k < r.used) (hnone : w'.read k = none) : decodeFrame m w' len = .error .unwritten :=
  (decodeFrame_orUnwritten h hw).resolve_right fun hok => decodeFrame_written hok k (Nat.zero_le k) hk hnone

end

theorem decodeFrame_first_unwritten {w : Memory} {len : Nat} (m : Mode) (hlen : minFrame ≤ len) (h : w.read 0 = none) :
    decodeFrame m w len = .error .unwritten := by
  simp [decodeFrame, hlen, rawByte, h]

/-! ### DECODE (R191) -/

theorem State.endDecode_eq_fault (s : State) (x : Dec Decoded) :
    s.endDecode x = .fault .unwrittenRead ↔ x = .error .unwritten := by
  match x with
  | .ok r => exact iff_of_false nofun nofun
  | .error (.error e) => exact iff_of_false nofun nofun
  | .error .unwritten => exact iff_of_true rfl rfl

/-- R241: of the codec errors only AllocationFailure has a code above 4. -/
theorem CodecError.code_le_four {c : CodecError} (h : c ≠ .allocationFailure) : c.code.toNat ≤ 4 := by
  cases c
  case allocationFailure => exact absurd rfl h
  all_goals decide

/-- If x stops for allowed reasons only, and all bytes below the length are written, it ends DECODE with a code of R241. -/
theorem State.endDecode_completes (s : State) {w : Memory} {len : Nat} {x : Dec Decoded}
    (hx : Dec.StopsOnly (DecodeStop.Allowed w len) x) (hw : ∀ k < len, w.read k ≠ none) :
    ∃ t, s.endDecode x = .next t ∧ t.status.toNat ≤ 4 := by
  match x, hx with
  | .ok r, _ => exact ⟨_, rfl, by simp [okCode]⟩
  | .error (.error c), hx => exact ⟨_, rfl, CodecError.code_le_four (hx _ rfl)⟩
  | .error .unwritten, hx =>
    obtain ⟨k, hk, hnone⟩ := hx _ rfl
    exact absurd hnone (hw k hk)

/-- Settles O38: DECODE ends as DecodeFrame does, which stops at an unwritten byte only if one is below the length, and
always if a frame that it would accept lacks one. -/
theorem decodeCompletesOnAWrittenBuffer : Obligations.DecodeCompletesOnAWrittenBuffer := by
  intro s
  have hdecode : ∀ {l}, s.wLen = .written l → exec .decode s = s.endDecode (decodeFrame s.mode s.wBuf l.toNat) :=
    fun hl => execDecode_eq hl
  refine ⟨fun l hl hw => ?_, fun hl => ?_, fun l hl => ?_⟩
  · rw [hdecode hl]
    exact s.endDecode_completes (decodeFrame_stopsOnly _ _ _) hw
  · simp [exec, execDecode, hl, Reg.value?]
  · rw [hdecode hl, State.endDecode_eq_fault]
    exact ⟨decodeFrame_first_unwritten _, Iff.rfl, fun _ _ _ hok hw hk hnone => decodeFrame_missing hok hw hk hnone⟩

end Sys2Proof.Machine
end

section
/-! Decoding and encoding undo each other (30_encoding.md R74 to R81, R140; O1, O2), and the words of examples (O3). -/

namespace Sys2Proof

/-! ### The bit fields of a command word (R78, R79) -/

/-- Bits beyond the width are zero. -/
theorem extractLsb'_eq_zero_of_le {k lo : Nat} (v : BitVec k) (n : Nat) (h : k ≤ lo) : v.extractLsb' lo n = 0#n := by
  refine BitVec.eq_of_getLsbD_eq fun j _ => ?_
  simp [BitVec.getLsbD_of_ge v (lo + j) (by omega)]

@[simp] theorem bitsOf_or (x y : Word) (lo n : Nat) : bitsOf (x ||| y) lo n = bitsOf x lo n ||| bitsOf y lo n :=
  BitVec.extractLsb'_or

@[simp] theorem bitsOf_and (x y : Word) (lo n : Nat) : bitsOf (x &&& y) lo n = bitsOf x lo n &&& bitsOf y lo n :=
  BitVec.extractLsb'_and

/-- A field of a constant word, for simp to compute. -/
@[simp] theorem bitsOf_ofNat (x lo n : Nat) :
    bitsOf (BitVec.ofNat 32 x) lo n = (BitVec.ofNat 32 x).extractLsb' lo n := rfl

@[simp] theorem bitsOf_setWidth {k : Nat} (v : BitVec k) (h : k ≤ 32) : bitsOf (v.setWidth 32) 0 k = v := by
  simp [bitsOf, BitVec.extractLsb'_setWidth_of_le, h]

@[simp] theorem bitsOf_setWidth_above {k lo n : Nat} (v : BitVec k) (h : k ≤ lo) (hn : lo + n ≤ 32) :
    bitsOf (v.setWidth 32) lo n = 0#n := by
  rw [bitsOf, BitVec.extractLsb'_setWidth_of_le hn, extractLsb'_eq_zero_of_le v n h]

@[simp] theorem bitsOf_shiftLeft {lo n s : Nat} (w : Word) (h : s ≤ lo) (hn : lo + n ≤ 32) :
    bitsOf (w <<< s) lo n = bitsOf w (lo - s) n := by
  refine BitVec.eq_of_getLsbD_eq fun j hj => ?_
  simp only [bitsOf, BitVec.getLsbD_extractLsb', BitVec.getLsbD_shiftLeft, hj, show lo + j < 32 by omega,
    show ¬ lo + j < s by omega, show lo + j - s = lo - s + j by omega, decide_true, decide_false, Bool.not_false,
    Bool.true_and]

@[simp] theorem bitsOf_shiftLeft_below {n s : Nat} (w : Word) (h : n ≤ s) : bitsOf (w <<< s) 0 n = 0#n := by
  refine BitVec.eq_of_getLsbD_eq fun j hj => ?_
  simp [bitsOf, show j < s by omega]

/-- x and y agree in fields of the widths ns, one above the other from bit lo up. -/
def AgreeFrom (x y : Word) (lo : Nat) : List Nat → Prop
  | [] => True
  | n :: ns => bitsOf x lo n = bitsOf y lo n ∧ AgreeFrom x y (lo + n) ns

theorem AgreeFrom.getLsbD_eq {x y : Word} : ∀ {ns : List Nat} {lo : Nat}, AgreeFrom x y lo ns →
    ∀ k, lo ≤ k → k < lo + ns.sum → x.getLsbD k = y.getLsbD k := by
  intro ns
  induction ns with
  | nil => intro lo _ k hlo hk; simp at hk; omega
  | cons n ns ih =>
    intro lo h k hlo hk
    obtain ⟨hn, hns⟩ := h
    rw [List.sum_cons] at hk
    rcases Nat.lt_or_ge k (lo + n) with hlt | hge
    · have hbit := congrArg (BitVec.getLsbD · (k - lo)) hn
      simpa [bitsOf, show k - lo < n by omega, show lo + (k - lo) = k by omega] using hbit
    · exact ih hns k hge (by omega)

/-- Words that agree in fields which make up all of the 32 bits are equal. -/
theorem AgreeFrom.eq {x y : Word} (ns : List Nat) (hsum : ns.sum = 32) (h : AgreeFrom x y 0 ns) : x = y :=
  BitVec.eq_of_getLsbD_eq fun k hk => h.getLsbD_eq k (Nat.zero_le k) (by omega)

/-! ### Command words (R78, R79, R81) -/

@[simp] theorem unlessReserved_eq_ok {ok : Bool} {i j : Instr} :
    unlessReserved ok i = .ok j ↔ ok = true ∧ i = j := by
  cases ok <;> simp [unlessReserved]

@[simp] theorem zeroBits_eq_true {w : Word} {lo n : Nat} : zeroBits w lo n = true ↔ bitsOf w lo n = 0#n := by
  simp [zeroBits]

/-- The fields of an encoded command are its opcode, zeros, and its operands. (Opcode 0xF is the last arm of
decodeCommand, which names none.) -/
theorem decodeCommand_encode {i : Instr} {w : Word} (h : encode i = .command w) : decodeCommand w = .ok i := by
  cases i <;> cases h
  case reservedOpF.refl x => simp (disch := omega) [decodeCommand] <;> rfl
  all_goals simp (disch := omega) [decodeCommand]

/-- Each opcode's word is put together again from the fields that its row of R78 names. -/
theorem encode_of_decodeCommand {i : Instr} {w : Word} (h : decodeCommand w = .ok i) : encode i = .command w := by
  unfold decodeCommand at h
  split at h
  case h_1 hop | h_14 hop | h_15 hop =>
    cases h
    exact congrArg Code.command (AgreeFrom.eq [28, 4] rfl (by simp (disch := omega) [AgreeFrom, hop]))
  case h_16 h0 h1 h2 h3 h4 h5 h6 h7 h8 h9 hA hB hC hD hE =>
    cases h
    have hop : bitsOf w 28 4 = 0xF#4 := by
      generalize bitsOf w 28 4 = op at *
      decide +revert
    exact congrArg Code.command (AgreeFrom.eq [28, 4] rfl (by simp (disch := omega) [AgreeFrom, hop]))
  all_goals
    rename_i hop
    obtain ⟨hz, rfl⟩ := unlessReserved_eq_ok.1 h
    simp only [Bool.and_eq_true, zeroBits_eq_true] at hz
    apply congrArg Code.command
  case h_3 | h_4 | h_5 => exact AgreeFrom.eq [28, 4] rfl (by simp [AgreeFrom, hop, hz])
  case h_2 => exact AgreeFrom.eq [1, 27, 4] rfl (by simp (disch := omega) [AgreeFrom, hop, hz])
  case h_6 | h_7 => exact AgreeFrom.eq [16, 12, 4] rfl (by simp (disch := omega) [AgreeFrom, hop, hz])
  case h_8 | h_12 => exact AgreeFrom.eq [8, 16, 4, 4] rfl (by simp (disch := omega) [AgreeFrom, hop, hz])
  case h_9 => exact AgreeFrom.eq [18, 10, 4] rfl (by simp (disch := omega) [AgreeFrom, hop, hz])
  case h_10 | h_13 => exact AgreeFrom.eq [8, 18, 2, 4] rfl (by simp (disch := omega) [AgreeFrom, hop, hz])
  case h_11 => exact AgreeFrom.eq [4, 24, 4] rfl (by simp (disch := omega) [AgreeFrom, hop, hz])

theorem decodeCommand_eq_ok {w : Word} {i : Instr} : decodeCommand w = .ok i ↔ encode i = .command w :=
  ⟨encode_of_decodeCommand, decodeCommand_encode⟩

/-! ### Frame types, raw bytes and escape pairs (R74, R76, R140) -/

theorem FrameType.ofCode_eq_some {v : Half} {t : FrameType} : FrameType.ofCode v = some t ↔ t.code = v := by
  constructor
  · intro h
    simpa only [beq_iff_eq] using List.find?_some h
  · rintro rfl
    cases t <;> rfl

theorem FrameType.encode_instr (t : FrameType) : encode t.instr = .frameType t.code := by
  cases t <;> rfl

theorem decodeFrameType_eq_ok {v : Half} {i : Instr} : decodeFrameType v = .ok i ↔ encode i = .frameType v := by
  constructor
  · intro h
    unfold decodeFrameType at h
    split at h
    · rename_i t ht
      cases h
      rw [t.encode_instr, FrameType.ofCode_eq_some.1 ht]
    · cases h
  · intro h
    cases i <;> cases h <;> rfl

theorem decodeWireByte_eq_ok {p : WirePos} {b : Byte} {i : Instr} :
    decodeWireByte p b = .ok i ↔ encode i = .wireByte p b ∧ i.wf = true := by
  constructor
  · intro h
    unfold decodeWireByte at h
    repeat' split at h
    all_goals cases h
    · subst b
      exact ⟨rfl, rfl⟩
    · subst b
      exact ⟨rfl, rfl⟩
    · exact ⟨rfl, bne_iff_ne.2 ‹_›⟩
  · rintro ⟨h, hwf⟩
    cases i <;> cases h
    case wireLit.refl => exact if_neg (bne_iff_ne.1 hwf)
    all_goals rfl

theorem decodeWirePair_eq_ok {v : Half} {i : Instr} :
    decodeWirePair v = .ok i ↔ encode i = .wirePair v ∧ i.wf = true := by
  constructor
  · intro h
    unfold decodeWirePair at h
    repeat' split at h
    all_goals cases h
    all_goals
      subst v
      decide
  · rintro ⟨h, hwf⟩
    cases i <;> cases h
    rename_i b
    rcases (Bool.or_eq_true _ _).mp hwf with hb | hb
    all_goals
      obtain rfl := eq_of_beq hb
      rfl

/-! ### Every code -/

/-- The rows whose operands are not restricted. -/
theorem wf_of_encode {i : Instr} (h : (∃ w, encode i = .command w) ∨ ∃ v, encode i = .frameType v) : i.wf = true := by
  cases i
  case wireLit | encEscape => exact absurd h (by simp [encode])
  all_goals rfl

theorem decode_eq_ok {c : Code} {i : Instr} : decode c = .ok i ↔ encode i = c ∧ i.wf = true := by
  cases c with
  | command w => exact decodeCommand_eq_ok.trans (iff_self_and.2 fun h => wf_of_encode (.inl ⟨w, h⟩))
  | frameType v => exact decodeFrameType_eq_ok.trans (iff_self_and.2 fun h => wf_of_encode (.inr ⟨v, h⟩))
  | wireByte p b => exact decodeWireByte_eq_ok
  | wirePair v => exact decodeWirePair_eq_ok

/-- Settles O1: an instruction's own encoding is a code it is decoded from. -/
theorem decodeOfEncodeIsIdentity : Obligations.DecodeOfEncodeIsIdentity :=
  fun _ hwf => decode_eq_ok.2 ⟨rfl, hwf⟩

/-- Settles O2: an instruction is decoded from its own encoding only. -/
theorem everyCodeHasOneMeaning : Obligations.EveryCodeHasOneMeaning :=
  fun _ _ => decode_eq_ok.1

/-- Settles O3: each word is the encoding of the instruction that the rule gives for it. -/
theorem exampleWordsDecode : Obligations.ExampleWordsDecode := by
  simp only [Obligations.ExampleWordsDecode, decode_eq_ok]
  and_intros <;> rfl

end Sys2Proof
end

section
/-! The reserved command words and opcodes (30_encoding.md R81; O4, O5). -/

namespace Sys2Proof

/-! ### The instructions of the reserved words -/

/-- R81: the four reserved opcodes. -/
def Instr.isReservedOp : Instr → Bool
  | .reservedOp0 _ | .reservedOpD _ | .reservedOpE _ | .reservedOpF _ => true
  | _ => false

end Sys2Proof

namespace Sys2Proof.Machine

/-- Where the mask is all ones, the word holds what the row prints. -/
theorem bitsOf_of_masked {w mask row : Word} (h : w &&& mask = row) {lo n : Nat}
    (hmask : bitsOf mask lo n = BitVec.allOnes n) : bitsOf w lo n = bitsOf row lo n := by
  rw [← h, bitsOf_and, hmask, BitVec.and_allOnes]

/-- A word of a command row is a command: the row fixes its opcode and its must-be-zero bits. -/
theorem exists_command_of_row {w : Word} {r : Word × Word} (hr : r ∈ commandRows) (h : w &&& r.2 = r.1) :
    ∃ i, decodeCommand w = .ok i ∧ i.isReservedOp = false := by
  have hw : ∀ {lo n}, bitsOf r.2 lo n = BitVec.allOnes n → bitsOf w lo n = bitsOf r.1 lo n := bitsOf_of_masked h
  simp only [commandRows, List.mem_cons, List.not_mem_nil, or_false] at hr
  rcases hr with rfl | rfl | rfl | rfl | rfl | rfl | rfl | rfl | rfl | rfl | rfl | rfl <;>
    simp (disch := decide) [decodeCommand, hw, Instr.isReservedOp]

/-- The other way round: a command's encoding is in its row of the table. -/
theorem exists_row_of_command {w : Word} {i : Instr} (h : encode i = .command w) (hi : i.isReservedOp = false) :
    ∃ r ∈ commandRows, w &&& r.2 = r.1 := by
  suffices hrow : (Laws.tableRow i).2 ∈ commandRows ∧ Laws.TableRow.Statement i by
    obtain ⟨hmem, -, hbits⟩ := hrow
    rw [h] at hbits
    exact ⟨_, hmem, hbits⟩
  cases i <;> cases h
  case reservedOp0.refl | reservedOpD.refl | reservedOpE.refl | reservedOpF.refl => cases hi
  all_goals refine ⟨by simp [Laws.tableRow, commandRows], ?_⟩
  case setmode.refl m => exact Laws.TableRow.setmode m
  case csum.refl => exact Laws.TableRow.csum
  case encode.refl => exact Laws.TableRow.encode
  case decode.refl => exact Laws.TableRow.decode
  case wrtype.refl v => exact Laws.TableRow.wrtype v
  case wrsize.refl v => exact Laws.TableRow.wrsize v
  case wrdata.refl i b => exact Laws.TableRow.wrdata i b
  case wrwlen.refl v => exact Laws.TableRow.wrwlen v
  case wrwbuf.refl i b => exact Laws.TableRow.wrwbuf i b
  case rdreg.refl sel => exact Laws.TableRow.rdreg sel
  case rddata.refl i => exact Laws.TableRow.rddata i
  case rdwbuf.refl i => exact Laws.TableRow.rdwbuf i

theorem noRow_iff {w : Word} : commandRows.all (fun r => w &&& r.2 != r.1) = true ↔
    ∀ i, decodeCommand w = .ok i → i.isReservedOp = true := by
  simp only [List.all_eq_true, bne_iff_ne]
  constructor
  · intro h i hi
    by_contra hop
    obtain ⟨r, hr, hw⟩ := exists_row_of_command (encode_of_decodeCommand hi) (Bool.eq_false_iff.2 hop)
    exact h r hr hw
  · intro h r hr hw
    obtain ⟨i, hi, hop⟩ := exists_command_of_row hr hw
    exact nomatch hop.symm.trans (h i hi)

/-- R80: the selector of a word of RDREG's row. -/
theorem bitsOf_toNat_selector (w : Word) : (bitsOf w 0 4).toNat = w.toNat % 16 := by
  simp [bitsOf]

theorem reservedRead_iff {w : Word} :
    (w &&& 0xFFFFFFF0#32 == 0xA0000000#32 && decide (5 < w.toNat % 16)) = true ↔
      ∃ sel, decodeCommand w = .ok (.rdreg sel) ∧ 5 < sel.toNat := by
  simp only [Bool.and_eq_true, beq_iff_eq, decide_eq_true_eq, ← bitsOf_toNat_selector]
  constructor
  · rintro ⟨hrow, hsel⟩
    have hw : ∀ {lo n}, bitsOf 0xFFFFFFF0#32 lo n = BitVec.allOnes n → bitsOf w lo n = bitsOf 0xA0000000#32 lo n :=
      bitsOf_of_masked hrow
    exact ⟨bitsOf w 0 4, by simp (disch := decide) [decodeCommand, hw], hsel⟩
  · rintro ⟨sel, hi, hsel⟩
    cases encode_of_decodeCommand hi
    exact ⟨(Laws.TableRow.rdreg sel).2, by simpa using hsel⟩

/-- R81 in terms of the instruction a word spells. -/
theorem reservedWord_iff {w : Word} : reservedWord w = true ↔
    (∀ i, decodeCommand w = .ok i → i.isReservedOp = true) ∨
      ∃ sel, decodeCommand w = .ok (.rdreg sel) ∧ 5 < sel.toNat := by
  rw [reservedWord, Bool.or_eq_true, noRow_iff, reservedRead_iff]

/-! ### What is refused as reserved (R81, R247) -/

theorem orFault_ne_refused {α : Type} {v : Option α} {k : α → Outcome} {r : Refusal} (h : ∀ a, k a ≠ .refused r) :
    orFault v k ≠ .refused r := by
  cases v with
  | none => exact nofun
  | some a => exact h a

theorem withDataIndex_ne_reserved {i : Half} {k : Nat → Outcome} (h : ∀ j, k j ≠ .refused .reservedEncoding) :
    withDataIndex i k ≠ .refused .reservedEncoding := by
  unfold withDataIndex
  split
  · exact h _
  · exact nofun

theorem withWireIndex_ne_reserved {s : State} {i : Wide} {k : Nat → Outcome}
    (h : ∀ j, k j ≠ .refused .reservedEncoding) : withWireIndex s i k ≠ .refused .reservedEncoding := by
  unfold withWireIndex
  split
  · exact h _
  · exact nofun

theorem withWireLength_ne_reserved {s : State} {v : Wide} {k : Wide → Outcome}
    (h : ∀ u, k u ≠ .refused .reservedEncoding) : withWireLength s v k ≠ .refused .reservedEncoding := by
  unfold withWireLength
  split
  · exact h _
  · exact nofun

theorem RegName.ofSel_eq_none {sel : BitVec 4} : RegName.ofSel sel = none ↔ 5 < sel.toNat := by
  decide +revert

theorem execRdreg_reserved {sel : BitVec 4} {s : State} :
    execRdreg sel s = .refused .reservedEncoding ↔ 5 < sel.toNat := by
  rw [← RegName.ofSel_eq_none]
  unfold execRdreg
  split
  · rename_i hsel
    exact iff_of_false (orFault_ne_refused nofun) (by simp [hsel])
  · rename_i hsel
    exact iff_of_true rfl hsel

/-- Of the commands only those with a reserved opcode and RDREG with a reserved selector are refused as reserved. -/
theorem exec_reserved {i : Instr} {w : Word} (hi : encode i = .command w) (s : State) :
    exec i s = .refused .reservedEncoding ↔ i.isReservedOp = true ∨ ∃ sel, i = .rdreg sel ∧ 5 < sel.toNat := by
  cases i <;> cases hi
  case reservedOp0.refl | reservedOpD.refl | reservedOpE.refl | reservedOpF.refl => exact iff_of_true rfl (.inl rfl)
  case rdreg.refl sel => exact execRdreg_reserved.trans (by simp [Instr.isReservedOp])
  all_goals refine iff_of_false ?_ (by simp [Instr.isReservedOp])
  case csum.refl => exact orFault_ne_refused nofun
  case encode.refl => exact orFault_ne_refused fun f => by split <;> exact nofun
  case decode.refl => exact orFault_ne_refused fun l => by split <;> exact nofun
  case wrdata.refl i b =>
    show execWrdata i b s ≠ _
    exact withDataIndex_ne_reserved nofun
  case wrwlen.refl v =>
    show execWrwlen v s ≠ _
    exact withWireLength_ne_reserved nofun
  case wrwbuf.refl i b =>
    show execWrwbuf i b s ≠ _
    exact withWireIndex_ne_reserved nofun
  case rddata.refl => exact withDataIndex_ne_reserved fun _ => orFault_ne_refused nofun
  case rdwbuf.refl => exact withWireIndex_ne_reserved fun _ => orFault_ne_refused nofun
  all_goals exact nofun

theorem step_reserved {s : State} {w : Word} {ws : List Word} (hs : s.Ready) (hp : s.pending = w :: ws) :
    step s = .refused .reservedEncoding ↔ reservedWord w = true := by
  obtain ⟨hok, herror, -⟩ := stepRunsTheOldestCommand s hs
  rw [reservedWord_iff]
  cases hd : decodeCommand w with
  | error r => exact iff_of_true (herror w ws r hp hd) (.inl nofun)
  | ok i =>
    rw [hok w ws i hp hd, exec_reserved (encode_of_decodeCommand hd)]
    simp

/-- Settles O4: which words are reserved is said by the instruction they spell, and a refusal sets its mark alone. -/
theorem reservedWordsAreRefused : Obligations.ReservedWordsAreRefused := by
  intro s w ws hs hp
  refine ⟨step_reserved hs hp, fun hw => ?_⟩
  rw [(step_reserved hs hp).2 hw, State.afterOutcome_refused]
  refine ⟨rfl, fun p hpart => ?_⟩
  cases p
  case refusalMark => simp at hpart
  all_goals simp [Part.Same]

/-- Settles O5: the four reserved opcodes share one meaning, the refusal of R81. -/
theorem reservedOpcodesAreRefused : Obligations.ReservedOpcodesAreRefused :=
  fun _ _ => ⟨rfl, rfl, rfl, rfl⟩

end Sys2Proof.Machine
end

section
/-! A table row put in place is what the next step fetches (O8). -/

namespace Sys2Proof.Machine

theorem step_of_fetch {s t : State} {i : Instr} (h : fetch s = .next (some (i, t))) : step s = exec i t := by
  rw [step, h]

/-! ### What fetch reads inside a codec command -/

section
variable {s : State} (hf : s.faultMark = false) (hr : s.refusalMark = false)
include hf hr

theorem fetch_encoding {e : Encoder} (hw : s.work = .encoding e) : fetch s = .next (some (e.nextItem, s)) := by
  simp [fetch, hf, hr, hw]

theorem fetch_decoding {d : Decoder} {b : Byte} (hw : s.work = .decoding d) (hb : s.wBuf.read d.pos = some b) :
    fetch s = .next (some (d.nextItem b, s)) := by
  simp [fetch, hf, hr, hw, hb]

end

/-! ### Each kind of row in its place (log 13) -/

theorem fetch_place_command (s : State) {w : Word} {i : Instr} (h : decode (.command w) = .ok i) :
    ∃ t, fetch (s.place (.command w)) = .next (some (i, t)) :=
  ⟨_, (fetch_ready ⟨rfl, rfl, rfl⟩).2.1 w s.pending i rfl h⟩

/-- An ENCODE that stands at its type field, where the row is one of R74. -/
theorem fetch_place_frameType (s : State) {v : Half} {i : Instr} (h : decode (.frameType v) = .ok i) :
    ∃ t, fetch (s.place (.frameType v)) = .next (some (i, t)) := by
  have hitem : (⟨0#16, bytesOf v, [delim]⟩ : Encoder).nextItem = i := by
    cases hcode : FrameType.ofCode v with
    | none => simp [decode, decodeFrameType, hcode] at h
    | some l =>
      simp only [decode, decodeFrameType, hcode, Except.ok.injEq] at h
      simp [Encoder.nextItem, Encoder.label, Encoder.atType, bytesOf, hcode, h]
  exact ⟨_, hitem ▸ fetch_encoding rfl rfl rfl⟩

/-- An ENCODE whose next field byte needs an escape, where the row is a pair of R140. -/
theorem fetch_place_wirePair (s : State) {v : Half} {i : Instr} (h : decode (.wirePair v) = .ok i) :
    ∃ t, fetch (s.place (.wirePair v)) = .next (some (i, t)) := by
  have hitem : (⟨0#16, [loByte v ^^^ escXor], [delim]⟩ : Encoder).nextItem = i := by
    simp only [decode, decodeWirePair] at h
    repeat' split at h
    all_goals cases h
    all_goals
      subst v
      decide
  exact ⟨_, hitem ▸ fetch_encoding rfl rfl rfl⟩

theorem fetch_place_rowCode16 (s : State) {v : Half} {i : Instr} (h : decode (rowCode16 v) = .ok i) :
    ∃ t, fetch (s.place (rowCode16 v)) = .next (some (i, t)) := by
  unfold rowCode16 at h ⊢
  split_ifs at h ⊢
  · exact fetch_place_wirePair s h
  · exact fetch_place_frameType s h

/-- A DECODE that stands at the raw byte: at its leading delimiter, or else at its first field byte. -/
theorem fetch_place_rowCode8 (s : State) {b : Byte} {i : Instr} (h : decode (rowCode8 b) = .ok i) :
    ∃ t, fetch (s.place (rowCode8 b)) = .next (some (i, t)) := by
  by_cases hb : b = delim
  · subst b
    cases h
    have hread := Memory.read_write_same s.wBuf 0 delim
    exact ⟨_, fetch_decoding (s := s.place (rowCode8 delim)) rfl rfl (d := ⟨s.mode, minFrame, 0, false, []⟩) rfl hread⟩
  · have hrow : rowCode8 b = .wireByte .field b := by simp [rowCode8, show b ≠ 0x7E#8 from hb]
    rw [hrow, decode_wireByte_field] at h
    cases h
    rw [hrow, ← Decoder.nextItem_inField (d := ⟨s.mode, minFrame, 1, false, []⟩) rfl]
    simp only [State.place, State.placeRaw, if_neg hb]
    exact ⟨_, fetch_decoding rfl rfl rfl (Memory.read_write_same _ 1 b)⟩

/-- Settles O8: each width's rows are put where their kind is read. -/
theorem placedRowIsFetched : Obligations.PlacedRowIsFetched := by
  intro s nbits w i h
  suffices hfetch : ∃ t, fetch (s.withFetchWord nbits w) = .next (some (i, t)) from
    hfetch.imp fun _ ht => ⟨ht, step_of_fetch ht⟩
  unfold decodeTableWord at h
  split at h
  · rename_i c hc
    rw [State.withFetchWord, hc, Option.getD_some]
    have hdecode : decode c = .ok i := by
      cases hd : decode c <;> simp_all [Except.toOption]
    unfold tableCode at hc
    split at hc
    · cases hc
      exact fetch_place_command s hdecode
    · cases hc
      exact fetch_place_rowCode16 s hdecode
    · cases hc
      exact fetch_place_rowCode8 s hdecode
    · cases hc
  · cases h

end Sys2Proof.Machine
end

section
/-! Which instructions respond (30_encoding.md R82; O19), and the canonical length (R72, R73; O30). -/

namespace Sys2Proof

theorem Instr.isItem_eq_false_of_isRead {i : Instr} (h : i.isRead = true) : i.isItem = false := by
  cases i <;> cases h <;> rfl

end Sys2Proof

namespace Sys2Proof.Machine

/-! ### Responses (R82) -/

/-- A read command's effect is one response word. -/
theorem Effect.responses {i : Instr} {s t : State} (h : Effect i s t) :
    (i.isRead = false → t.responses = s.responses) ∧ (i.isRead = true → ∃ w, t.responses = s.responses ++ [w]) := by
  cases hread : i.isRead with
  | false =>
    refine ⟨fun _ => ?_, nofun⟩
    cases h with
    | read _ w hi => exact nomatch hread.symm.trans hi
    | _ => simp
  | true =>
    refine ⟨nofun, fun _ => ?_⟩
    cases h with
    | read _ w _ => exact ⟨w, rfl⟩
    | takes hi | takesLast hi | takeFails _ hi | sendsFirst hi | sends hi | sendsLast hi =>
      exact nomatch hi.symm.trans (i.isItem_eq_false_of_isRead hread)
    | _ => cases hread

/-- Settles O19: of all effects those of the read commands alone respond. -/
theorem onlyReadCommandsRespond : Obligations.OnlyReadCommandsRespond :=
  fun _ _ _ h => (exec_effect h).responses

/-! ### The canonical length -/

/-- R72: two delimiters, and a byte more for each field byte that is escaped. -/
theorem wireBytes_length (f : Frame) (c : Half) :
    (wireBytes f c).length = 8 + f.data.length + escapes (fieldBytes f c) := by
  have hlen := escapeSeq_length (fieldBytes f c)
  rw [fieldBytes_length] at hlen
  rw [wireBytes_eq, List.length_append, List.length_append, hlen]
  simp only [escapes, List.length_singleton]
  omega

/-- Settles O30: the length of R72 in closed form, and its bound. -/
theorem canonicalLengthCountsEscapes : Obligations.CanonicalLengthCountsEscapes := by
  intro f c hdata
  have hlen := wireBytes_length f c
  have hmax := wireBytes_length_le f c
  rw [hdata] at hlen hmax
  refine ⟨hlen, by omega, hmax, ?_⟩
  rw [hlen, ← BitVec.toNat_inj]
  simp only [BitVec.toNat_ofNat, Nat.zero_mod]
  omega

end Sys2Proof.Machine
end

section
/-! The pseudo-instructions LOADFRAME and LOADWIRE (30_encoding.md R84; O52, O53). -/

namespace Sys2Proof.Machine

/-! ### Instructions in a row -/

theorem execAll_cons {s t : State} {i : Instr} (h : exec i s = .next t) (is : List Instr) :
    execAll (i :: is) s = execAll is t := by
  rw [execAll, h]

theorem execAll_append {is : List Instr} (js : List Instr) :
    ∀ {s t : State}, execAll is s = .next t → execAll (is ++ js) s = execAll js t := by
  induction is with
  | nil =>
    intro s t h
    cases h
    rfl
  | cons i is ih =>
    intro s t h
    cases hi : exec i s with
    | next u =>
      rw [execAll_cons hi] at h
      rw [List.cons_append, execAll_cons hi, ih h]
    | fault r => simp [execAll, hi] at h
    | refused r => simp [execAll, hi] at h

theorem toNat_ofNat_of_le {n k cap : Nat} (hk : k ≤ cap) (hcap : cap < 2 ^ n) : (BitVec.ofNat n k).toNat = k := by
  rw [BitVec.toNat_ofNat, Nat.mod_eq_of_lt (Nat.lt_of_le_of_lt hk hcap)]

/-! ### LOADFRAME (R210 to R212) -/

theorem exec_wrdata (s : State) {k : Nat} (hk : k < dataCap) (b : Byte) :
    exec (.wrdata (BitVec.ofNat 16 k) b) s = .next (s.setData k [b]) := by
  have hindex : (BitVec.ofNat 16 k).toNat = k := toNat_ofNat_of_le hk.le (by decide)
  simp [exec, execWrdata, withDataIndex, hindex, hk]

/-- One WRDATA a byte writes the bytes in a row. -/
theorem execAll_dataWrites : ∀ (bs : List Byte) (s : State) (k : Nat), k + bs.length ≤ dataCap →
    execAll (dataWrites k bs) s = .next (s.setData k bs) := by
  intro bs
  induction bs with
  | nil => intro s k _; rfl
  | cons b bs ih =>
    intro s k hk
    rw [List.length_cons] at hk
    rw [dataWrites, execAll_cons (exec_wrdata s (by omega) b), ih _ _ (by omega)]
    rfl

/-- Settles O52: the expansion writes the three frame registers, and F_DATA[0..F_SIZE) holds what was written last. -/
theorem loadFrameLoadsTheFrame : Obligations.LoadFrameLoadsTheFrame := by
  intro t bs s hlen
  have hsize : (BitVec.ofNat 16 bs.length).toNat = bs.length := toNat_ofNat_of_le hlen (by decide)
  refine ⟨((s.setType t).setSize (BitVec.ofNat 16 bs.length)).setData 0 bs, ?_, ?_, ?_, fun p hp => ?_⟩
  · have hdata : 0 + bs.length ≤ dataCap := by rwa [Nat.zero_add]
    rw [loadFrame, execAll_cons rfl, execAll_cons rfl, execAll_dataWrites bs _ 0 hdata]
  · exact State.frame?_eq_some.2 ⟨rfl, rfl, hsize.symm, Memory.holds_writeFrom _ 0 bs⟩
  · exact Memory.sameOutside_writeFrom _ 0 bs
  · cases p
    case fType | fSize | fData => simp at hp
    all_goals simp [Part.Same]

/-! ### LOADWIRE (R213, R214) -/

theorem exec_wrwbuf {s : State} (hs : s.config.Ok) {k : Nat} (hk : k < s.config.wireCap) (b : Byte) :
    exec (.wrwbuf (BitVec.ofNat 18 k) b) s = .next (s.setWire k [b]) := by
  have hindex : (BitVec.ofNat 18 k).toNat = k := toNat_ofNat_of_le (hk.le.trans hs.2) (by decide)
  simp [exec, execWrwbuf, withWireIndex, hindex, hk]

/-- One WRWBUF a byte writes the bytes in a row. -/
theorem execAll_wireWrites : ∀ (bs : List Byte) (s : State) (k : Nat), s.config.Ok → k + bs.length ≤ s.config.wireCap →
    execAll (wireWrites k bs) s = .next (s.setWire k bs) := by
  intro bs
  induction bs with
  | nil => intro s k _ _; rfl
  | cons b bs ih =>
    intro s k hs hk
    rw [List.length_cons] at hk
    have hrest : k + 1 + bs.length ≤ (s.setWire k [b]).config.wireCap := by
      rw [State.setWire_config]
      omega
    rw [wireWrites, execAll_cons (exec_wrwbuf hs (by omega) b), ih (s.setWire k [b]) _ hs hrest]
    rfl

/-- Settles O53: the expansion writes W_BUF[0..L), and then W_LEN, which holds every length up to WIRE_CAP. -/
theorem loadWireLoadsTheBuffer : Obligations.LoadWireLoadsTheBuffer := by
  intro ws s hlen hs
  have hv : (BitVec.ofNat 18 ws.length).toNat = ws.length := toNat_ofNat_of_le (hlen.trans hs.2) (by decide)
  refine ⟨(s.setWire 0 ws).setWireLen (BitVec.ofNat 18 ws.length), _, ?_, Memory.holds_writeFrom _ 0 ws,
    Memory.sameOutside_writeFrom _ 0 ws, rfl, hv, fun p hp => ?_⟩
  · have hlength : exec (.wrwlen (BitVec.ofNat 18 ws.length)) (s.setWire 0 ws) =
        .next ((s.setWire 0 ws).setWireLen (BitVec.ofNat 18 ws.length)) := by
      simp [exec, execWrwlen, withWireLength, hlen, hv]
    rw [loadWire, execAll_append _ (execAll_wireWrites ws s 0 hs (by rwa [Nat.zero_add])), execAll_cons hlength]
    rfl
  · cases p
    case wBuf | wLen => simp at hp
    all_goals simp [Part.Same]

end Sys2Proof.Machine
end

section
/-! What a DECODE in progress does with a raw byte (30_encoding.md R76, R143, R144; O54), and the frame-type labels as
the type field of the frame a codec command works on (R74, R75; O56). -/

namespace Sys2Proof.Machine

/-! ### Where the cursor stands (R76) -/

theorem Decoder.exists_place_inField {d : Decoder} (h0 : 0 < d.pos)
    (h : d.bytes.length < 4 ∨ d.bytes.length < 6 + d.size.toNat) : ∃ ph, d.place = .inField ph := by
  cases hp : d.place with
  | leading => exact absurd (Decoder.place_leading.1 hp) (by omega)
  | inField ph => exact ⟨ph, rfl⟩
  | trailing =>
    obtain ⟨-, hlen⟩ := Decoder.place_trailing hp
    omega

theorem Decoder.place_eq_trailing {d : Decoder} (h0 : 0 < d.pos) (h : 6 + d.size.toNat ≤ d.bytes.length) :
    d.place = .trailing := by
  cases hp : d.place with
  | leading => exact absurd (Decoder.place_leading.1 hp) (by omega)
  | inField ph =>
    obtain ⟨-, hlen, -⟩ := Decoder.place_inField hp
    omega
  | trailing => rfl

/-! ### How a raw byte is taken at each place -/

section
variable {d : Decoder} {x : Byte}

theorem Decoder.takeRaw_leading (h : d.pos = 0) :
    d.takeRaw x = if x = delim then { d with pos := 1 }.proceed else .failed .framingError := by
  simp only [Decoder.takeRaw, Decoder.place_leading.2 h]

theorem Decoder.takeRaw_trailing (h : d.place = .trailing) :
    d.takeRaw x = if x = delim then .done ⟨⟨d.type, d.size, d.data⟩, d.csum, d.pos + 1⟩ else .failed .framingError := by
  simp only [Decoder.takeRaw, h]

theorem Decoder.takeRaw_escape {ph : Phase} (h : d.place = .inField ph) (he : d.escaped = false) :
    d.takeRaw esc = { d with pos := d.pos + 1, escaped := true }.proceed := by
  simp [Decoder.takeRaw, h, he]

/-- A literal, or the second byte of a pair, completes a field byte. -/
theorem Decoder.takeRaw_field {ph : Phase} {y : Byte} (h : d.place = .inField ph)
    (hy : (d.escaped = false ∧ x ≠ esc ∧ y = x) ∨ (d.escaped = true ∧ y = x ^^^ escXor)) :
    d.takeRaw x = (d.taking [y] (d.pos + 1)).check := by
  rw [← Decoder.push_eq_check]
  rcases hy with ⟨he, hx, rfl⟩ | ⟨he, rfl⟩
  · simp [Decoder.takeRaw, h, he, hx]
  · simp [Decoder.takeRaw, h, he]

end

/-! ### The checks made when a field byte is complete (R184, R188) -/

/-- Field bytes that are as many as the size asks for are a frame's. -/
theorem Decoder.bytes_eq {d : Decoder} (h : d.bytes.length = 6 + d.size.toNat) :
    d.bytes = bytesOf d.type ++ bytesOf d.size ++ d.data ++ bytesOf d.csum ∧ d.data.length = d.size.toNat := by
  suffices hframe : ∃ t z p c, d.bytes = bytesOf t ++ bytesOf z ++ p ++ bytesOf c ∧ p.length = z.toNat by
    obtain ⟨t, z, p, c, hbytes, hp⟩ := hframe
    obtain ⟨rfl, rfl, rfl, rfl, -⟩ := Decoder.fields_of_bytes hp hbytes
    exact ⟨hbytes, hp⟩
  obtain ⟨a, b, x, y, hhead⟩ := List.length_eq_four.1 (show (d.bytes.take 4).length = 4 by simp; omega)
  have hsplit : d.bytes = [a, b, x, y] ++ d.bytes.drop 4 := by rw [← hhead, List.take_append_drop]
  have hsize : d.size = be16 x y := by rw [Decoder.size, hsplit]; rfl
  obtain ⟨u, v, htail⟩ := List.length_eq_two.1
    (show ((d.bytes.drop 4).drop d.size.toNat).length = 2 by simp; omega)
  refine ⟨be16 a b, be16 x y, (d.bytes.drop 4).take d.size.toNat, be16 u v, ?_, ?_⟩
  · rw [bytesOf_be16, bytesOf_be16, bytesOf_be16, ← htail, List.append_assoc, List.take_append_drop]
    exact hsplit
  · rw [← hsize]
    simp
    omega

theorem Decoder.check_underflow {d : Decoder} (h : d.bytes.length = 4) (hsize : d.len - 8 < d.size.toNat) :
    d.check = .failed .dataUnderflow :=
  if_pos ⟨h, hsize⟩

theorem Decoder.check_mismatch {d : Decoder} {t z c : Half} {p : List Byte} (hp : p.length = z.toNat)
    (hb : d.bytes = bytesOf t ++ bytesOf z ++ p ++ bytesOf c) (hc : c ≠ checksum d.mode t z p) :
    d.check = .failed .checksumMismatch := by
  obtain ⟨ht, hz, hd, hcsum, hlen⟩ := Decoder.fields_of_bytes hp hb
  have hbad : d.bytes.length = 6 + d.size.toNat ∧ d.csum ≠ d.expected := by
    rw [Decoder.expected, ht, hz, hd, hcsum]
    exact ⟨hlen, hc⟩
  rw [Decoder.check, if_neg (by omega), if_pos hbad]

theorem Decoder.check_proceed {d : Decoder} (hsize : d.bytes.length = 4 → d.size.toNat ≤ d.len - 8)
    (hcsum : ∀ t p c, d.bytes = bytesOf t ++ bytesOf d.size ++ p ++ bytesOf c → p.length = d.size.toNat →
      c = checksum d.mode t d.size p) : d.check = d.proceed := by
  rw [Decoder.check, if_neg fun hbad => ?_, if_neg fun hbad => ?_]
  · obtain ⟨hlen, hne⟩ := hbad
    obtain ⟨hbytes, hdata⟩ := Decoder.bytes_eq hlen
    exact hne (hcsum _ _ _ hbytes hdata)
  · obtain ⟨hlen, hbig⟩ := hbad
    exact Nat.not_lt.2 (hsize hlen) hbig

/-! ### What comes of one raw byte -/

section
variable {s : State} {d : Decoder} {x : Byte}

theorem State.feed_failed {e : CodecError} {c : BitVec 4} (h : d.takeRaw x = .failed e) (hc : e.code = c) :
    EndsWith (s.feed d [x]) s c := by
  simp only [State.feed, h]
  exact EndsWith.complete s hc

theorem State.feed_more {d' : Decoder} (h : d.takeRaw x = .more d') : GoesOn (s.feed d [x]) s (.decoding d') := by
  simp only [State.feed, h]
  exact GoesOn.setWork s _

/-- The bounds check after the byte (R146; log 9). -/
theorem State.feed_proceed {d' : Decoder} (h : d.takeRaw x = d'.proceed) (h0 : 0 < d'.pos) :
    (d'.pos < d'.len → GoesOn (s.feed d [x]) s (.decoding d')) ∧
    (d'.len ≤ d'.pos → EndsWith (s.feed d [x]) s
      (if 4 ≤ d'.bytes.length ∧ d'.bytes.length < 4 + d'.size.toNat then 3#4 else 2#4)) := by
  refine ⟨fun hlt => State.feed_more (h.trans (if_pos hlt)), fun hle => ?_⟩
  exact State.feed_failed (h.trans (if_neg (Nat.not_lt.2 hle))) (Decoder.outOfData_code h0)

/-- The trailing delimiter commits the frame (R191). -/
theorem State.feed_done {r : Decoded} (h : d.takeRaw x = .done r) :
    ∃ u, s.feed d [x] = .next u ∧ u.fType = .written r.frame.type ∧ u.fSize = .written r.frame.size ∧
      Holds u.fData 0 r.frame.data ∧ SameOutside s.fData u.fData 0 r.frame.data.length ∧ u.fCsum = .written r.csum ∧
      u.status = 0#4 ∧ u.work = .idle ∧ KeepsAllBut [.fType, .fSize, .fData, .fCsum, .status, .work] s u := by
  refine ⟨(s.setWork .idle).commitDecoded r, by simp [State.feed, h], by simp, by simp, ?_, ?_, by simp,
    by simp [okCode], by simp, fun p hp => ?_⟩
  · simpa using Memory.holds_writeFrom s.fData 0 r.frame.data
  · simpa using Memory.sameOutside_writeFrom s.fData 0 r.frame.data
  · cases p
    case fType | fSize | fData | fCsum | status | work => simp at hp
    all_goals simp [Part.Same]

end

/-- Settles O54: at each place taking the byte is one of the equations above, and what comes of it follows. -/
theorem decodeTakesRawBytes : Obligations.DecodeTakesRawBytes := by
  intro s d i x hw hlen hx
  rw [exec_rawByte hw hx]
  refine ⟨fun h0 => ⟨fun hdelim => ?_, fun hdelim => ?_⟩, fun h0 hfield => ?_, fun h0 t z p c hbytes hp => ?_⟩
  · have htake : d.takeRaw x = { d with pos := 1 }.proceed := (Decoder.takeRaw_leading h0).trans (if_pos hdelim)
    exact (State.feed_proceed htake Nat.one_pos).1 (Nat.lt_of_lt_of_le (show 1 < 8 by decide) hlen)
  · exact State.feed_failed ((Decoder.takeRaw_leading h0).trans (if_neg hdelim)) rfl
  · obtain ⟨ph, hplace⟩ := Decoder.exists_place_inField h0 hfield
    refine ⟨fun he hesc => ?_, ?_⟩
    · subst hesc
      exact State.feed_proceed (Decoder.takeRaw_escape hplace he) (Nat.succ_pos _)
    · rintro y _ _ hy rfl rfl
      have htake := Decoder.takeRaw_field hplace hy
      refine ⟨fun hfour hbig => ?_, fun t p c hb hp hc => ?_, fun hsize hcsum => ?_⟩
      · exact State.feed_failed (htake.trans (Decoder.check_underflow hfour hbig)) rfl
      · exact State.feed_failed (htake.trans (Decoder.check_mismatch hp hb hc)) rfl
      · exact State.feed_proceed (htake.trans (Decoder.check_proceed hsize hcsum)) (Nat.succ_pos _)
  · obtain ⟨ht, hz, hd, hc, hcount⟩ := Decoder.fields_of_bytes hp hbytes
    have htake := Decoder.takeRaw_trailing (x := x) (Decoder.place_eq_trailing h0 (hz ▸ hcount.ge))
    rw [ht, hz, hd, hc] at htake
    refine ⟨fun hdelim => ?_, fun hdelim => State.feed_failed (htake.trans (if_neg hdelim)) rfl⟩
    rw [← hp]
    exact State.feed_done (htake.trans (if_pos hdelim))

/-! ### The frame-type labels (R74, R75) -/

theorem escapeSeq_eq_self {q : List Byte} (h : ∀ b ∈ q, special b = false) : escapeSeq q = q := by
  induction q with
  | nil => rfl
  | cons b q ih =>
    obtain ⟨hb, hq⟩ := List.forall_mem_cons.1 h
    rw [escapeSeq_cons, ih hq, escape, hb]
    rfl

/-- No byte of a label's code needs an escape. -/
theorem not_special_of_mem_code (l : FrameType) : ∀ b ∈ bytesOf l.code, special b = false := by
  cases l <;> simp [FrameType.code, bytesOf, hiByte, loByte, special, esc, delim]

theorem ne_esc_of_not_special {b : Byte} (h : special b = false) : b ≠ esc := by
  rintro rfl
  cases h

/-- Within the header a field byte is checked for nothing but the length. -/
theorem Decoder.check_header {d : Decoder} (h : d.bytes.length < 4) (hpos : d.pos < d.len) : d.check = .more d := by
  rw [Decoder.check, if_neg (by omega), if_neg (by omega), Decoder.proceed, if_pos hpos]

/-- After the leading delimiter, two bytes other than 0x7D are the type field (R183). -/
theorem State.feed_type (s : State) (m : Mode) {len : Nat} {v : Half} (hlen : 8 ≤ len) (hv : ∀ b ∈ bytesOf v, b ≠ esc) :
    s.feed ⟨m, len, 1, false, []⟩ (bytesOf v) = .next (s.setWork (.decoding ⟨m, len, 3, false, bytesOf v⟩)) := by
  have hfirst : (⟨m, len, 1, false, []⟩ : Decoder).takeRaw (hiByte v) = .more ⟨m, len, 2, false, [hiByte v]⟩ :=
    (Decoder.takeRaw_field (ph := .hdr) rfl (.inl ⟨rfl, hv _ (by simp [bytesOf]), rfl⟩)).trans
      (Decoder.check_header (show 1 < 4 by decide) (show 2 < len by omega))
  have hsecond : (⟨m, len, 2, false, [hiByte v]⟩ : Decoder).takeRaw (loByte v) = .more ⟨m, len, 3, false, bytesOf v⟩ :=
    (Decoder.takeRaw_field (ph := .hdr) rfl (.inl ⟨rfl, hv _ (by simp [bytesOf]), rfl⟩)).trans
      (Decoder.check_header (show 2 < 4 by decide) (show 3 < len by omega))
  simp only [bytesOf, State.feed, hfirst, hsecond]

/-- Settles O56: a label is the type field of its code, of which no byte is escaped. -/
theorem typeLabelsAreTheTypeField : Obligations.TypeLabelsAreTheTypeField := by
  intro l v s hv
  obtain rfl : v = l.code := by cases l <;> exact hv
  have hescape : escapeSeq (bytesOf l.code) = bytesOf l.code := escapeSeq_eq_self (not_special_of_mem_code l)
  refine ⟨l.encode_instr, fun c q hw => ?_, fun m len hlen hw => ?_⟩
  · have hitem : exec l.instr s = s.send ⟨c, bytesOf l.code ++ q, [delim]⟩ (bytesOf l.code) := by
      rw [exec_frameType, typeItem, hw]
      rfl
    rw [hitem, s.send_append (by simp) rfl, hescape]
    exact GoesOn.setWork s _
  · have hitem : exec l.instr s = s.feed ⟨m, len, 1, false, []⟩ (bytesOf l.code) := by
      rw [exec_frameType, typeItem, hw, hescape]
      rfl
    rw [hitem, s.feed_type m hlen fun b hb => ne_esc_of_not_special (not_special_of_mem_code l b hb)]
    exact GoesOn.setWork s _

end Sys2Proof.Machine
end

section
/-! The mode of operation (40_mode.md): SETMODE (O16) and what the mode changes on the wire (O31). -/

namespace Sys2Proof.Machine

/-! ### MODE (R22, R100) -/

@[simp] theorem Mode.bit_ofBit (m : BitVec 1) : (Mode.ofBit m).bit = m := by
  decide +revert

@[simp] theorem Mode.ofBit_bit (m : Mode) : Mode.ofBit m.bit = m := by
  cases m <;> rfl

theorem exec_setmode (m : BitVec 1) (s : State) : exec (.setmode m) s = .next (s.setMode (Mode.ofBit m)) := rfl

@[simp] theorem State.setMode_self (s : State) : s.setMode s.mode = s := rfl

theorem State.setMode_keepsAllBut (s : State) (m : Mode) : KeepsAllBut [.mode] s (s.setMode m) := by
  intro p hp
  cases p
  case mode => simp at hp
  all_goals simp [Part.Same]

/-! ### SETMODE's words (R78, R81, R100) -/

/-- R79: a field of a word as a number. -/
theorem bitsOf_toNat (w : Word) (lo n : Nat) : (bitsOf w lo n).toNat = w.toNat / 2 ^ lo % 2 ^ n := by
  rw [bitsOf, BitVec.extractLsb'_toNat, Nat.shiftRight_eq_div_pow]

/-- R78: SETMODE's opcode, its must-be-zero bits and its operand. -/
theorem decodeCommand_setmode {w : Word} (h : bitsOf w 28 4 = 1#4) :
    decodeCommand w = unlessReserved (zeroBits w 1 27) (.setmode (bitsOf w 0 1)) := by
  simp only [decodeCommand, h]

theorem decodeCommand_setmode_reserved {w : Word} (hop : w.toNat / 2 ^ 28 = 1) (hbits : w.toNat / 2 % 2 ^ 27 ≠ 0) :
    decodeCommand w = .error .reservedBit := by
  have hopcode : bitsOf w 28 4 = 1#4 := BitVec.eq_of_toNat_eq (by rw [bitsOf_toNat, hop]; rfl)
  have hzero : zeroBits w 1 27 = false := by
    rw [Bool.eq_false_iff, ne_eq, zeroBits_eq_true, ← BitVec.toNat_inj, bitsOf_toNat]
    exact hbits
  rw [decodeCommand_setmode hopcode, hzero]
  rfl

/-- Settles O16: SETMODE is the write of MODE, and MODE holds one of two values that the operand names. -/
theorem setmodeSelectsTheChecksum : Obligations.SetmodeSelectsTheChecksum := by
  refine fun m s => ⟨rfl, fun w => decodeCommand_setmode_reserved, _, exec_setmode m s, by simp,
    s.setMode_keepsAllBut _, ?_⟩
  rintro rfl
  rw [Mode.ofBit_bit, State.setMode_self]

/-! ### The wire bytes under the two modes (R103, R160) -/

/-- R160: what EncodeFrame answers, when it answers. -/
theorem encodeFrame_ok {c : Config} {mode : Mode} {f : Frame} {out : List Byte} {ck : Half}
    (h : encodeFrame c mode f = .ok (out, ck)) :
    fits c f.size = true ∧ out = wireBytes f ck ∧ ck = f.checksum mode := by
  unfold encodeFrame at h
  split at h
  · cases h
    exact ⟨‹_›, rfl, rfl⟩
  · cases h

/-- R160, R162: the bytes before the checksum are the same whatever the checksum. -/
theorem wireBytes_eq_prefix_csum (f : Frame) (c : Half) : wireBytes f c =
    [delim] ++ escapeSeq (bytesOf f.type ++ bytesOf f.size ++ f.data) ++ escapeSeq (bytesOf c) ++ [delim] := by
  simp only [wireBytes, escapeSeq_append, List.append_assoc]

/-- Settles O31: each mode's wire bytes are those of one frame, of which the checksum comes last. -/
theorem modesDifferOnlyInTheChecksum : Obligations.ModesDifferOnlyInTheChecksum := by
  intro c f o1 o2 c1 c2 h1 h2
  obtain ⟨-, rfl, -⟩ := encodeFrame_ok h1
  obtain ⟨-, rfl, -⟩ := encodeFrame_ok h2
  exact ⟨_, rfl, wireBytes_eq_prefix_csum f c1, wireBytes_eq_prefix_csum f c2⟩

end Sys2Proof.Machine
end

section
/-! The checksum engine (41_checksum.md): the CRC table (O20), BootROM (O21), FDL (O22) and the command CSUM (O23). -/

namespace Sys2Proof.Machine

/-! ### The CRC table and the BootROM register (R110 to R114, R120) -/

/-- R111: the table's index enters the generator in the high byte. -/
theorem crcTable_eq_crcStep (i : Byte) : crcTable i = crcStep (i.setWidth 16 <<< 8) := by
  have hindex : i ++ 0#8 = i.setWidth 16 <<< 8 := by
    rw [BitVec.append_def]
    simp [BitVec.shiftLeftZeroExtend_eq]
  rw [crcTable, hindex]

/-- The 32 entries of the generated table from a start index. -/
def crcTableFrom (start : Nat) : List Half := (List.range' start 32).map (fun i => crcTable (BitVec.ofNat 8 i))

/-- R111: each printed row of 32 is the generated one. -/
theorem crcRows_eq_crcTableFrom :
    crcRows00 = crcTableFrom 0x00 ∧ crcRows20 = crcTableFrom 0x20 ∧ crcRows40 = crcTableFrom 0x40 ∧
    crcRows60 = crcTableFrom 0x60 ∧ crcRows80 = crcTableFrom 0x80 ∧ crcRowsA0 = crcTableFrom 0xA0 ∧
    crcRowsC0 = crcTableFrom 0xC0 ∧ crcRowsE0 = crcTableFrom 0xE0 := by
  decide

/-- R111: the rows stand one after the other, so the whole printed table is the generated one. -/
theorem crcPrinted_eq_map : crcPrinted = (List.range 256).map (fun i => crcTable (BitVec.ofNat 8 i)) := by
  obtain ⟨h0, h2, h4, h6, h8, hA, hC, hE⟩ := crcRows_eq_crcTableFrom
  rw [crcPrinted, h0, h2, h4, h6, h8, hA, hC, hE]
  simp only [crcTableFrom, ← List.map_append]
  iterate 7 rw [List.range'_append_1]
  rw [List.range_eq_range']

theorem crcPrinted_getElem? (i : Byte) : crcPrinted[i.toNat]? = some (crcTable i) := by
  rw [crcPrinted_eq_map, List.getElem?_map, List.getElem?_range i.isLt, Option.map_some, BitVec.ofNat_toNat,
    BitVec.setWidth_eq]

/-- R111: the table has an entry for every byte. -/
theorem crcPrinted_length : crcPrinted.length = 256 := by
  rw [crcPrinted_eq_map, List.length_map, List.length_range]

/-- Settles O20: the generator is eight shifts by definition, and the entry it makes for a byte is the printed one. -/
theorem crcTableIsThePrintedOne : Obligations.CrcTableIsThePrintedOne := by
  refine ⟨fun _ => rfl, fun _ => rfl, crcPrinted_length, fun i => ?_, crcTable_eq_crcStep⟩
  rw [crcPrinted_getElem?, crcTable_eq_crcStep]

theorem hiByte_toNat (v : Half) : (hiByte v).toNat = v.toNat >>> 8 := by
  rw [hiByte, BitVec.extractLsb'_toNat, Nat.mod_eq_of_lt]
  rw [Nat.shiftRight_eq_div_pow]
  omega

/-- R113: the update on unbounded integers, with the register cut to 16 bits before the XOR. -/
theorem crcUpdate_toNat (r : Half) (b : Byte) :
    (crcUpdate r b).toNat = ((r.toNat <<< 8) &&& 0xFFFF) ^^^ (crcTable (hiByte r ^^^ b)).toNat := by
  rw [crcUpdate, BitVec.toNat_xor, BitVec.toNat_shiftLeft, ← Nat.and_two_pow_sub_one_eq_mod]

/-- Settles O21: BootROM is the fold of the update over CIN, and each update looks up the printed table. -/
theorem bootRomRunsTheRegister : Obligations.BootRomRunsTheRegister := by
  refine ⟨fun m t s d => ?_, rfl, fun q b => List.foldl_append, fun r b => ⟨_, ?_, crcUpdate_toNat r b⟩,
    fun _ _ _ => rfl⟩
  · cases m
    · exact ⟨fun _ => rfl, fun h => absurd h (by decide)⟩
    · exact ⟨fun h => absurd h (by decide), fun _ => rfl⟩
  · rw [← hiByte_toNat, ← BitVec.toNat_xor]
    exact crcPrinted_getElem? _

/-! ### FDL (R116 to R119) -/

theorem be16_toNat (hi lo : Byte) : (be16 hi lo).toNat = 256 * hi.toNat + lo.toNat := by
  rw [be16, BitVec.toNat_append, ← Nat.shiftLeft_add_eq_or_of_lt lo.isLt, Nat.shiftLeft_eq, Nat.mul_comm]

@[simp] theorem wordSum_nil : wordSum [] = 0 := rfl

@[simp] theorem wordSum_singleton (b : Byte) : wordSum [b] = b.toNat := by simp [wordSum]

/-- R116: the first two bytes are a word of their own, and the rest is paired as if it stood alone. -/
@[simp] theorem wordSum_cons_cons (hi lo : Byte) (q : List Byte) :
    wordSum (hi :: lo :: q) = (be16 hi lo).toNat + wordSum q := by
  have hlen : (q.length + 2) / 2 = q.length / 2 + 1 := by omega
  rw [be16_toNat]
  simp only [wordSum, List.length_cons, Nat.reduceAdd, Nat.add_assoc, hlen, Nat.add_mod_right, List.range_succ_eq_map,
    List.map_cons, List.map_map, Function.comp_def, List.sum_cons]
  -- What is left is the odd last byte, which q has at its length - 1 only if q is not empty.
  cases q with
  | nil => rfl
  | cons b q => rfl

@[simp] theorem wordSum_bytesOf (v : Half) : wordSum (bytesOf v) = v.toNat := by simp [bytesOf]

/-- R119: each word is at most 0xFFFF, and an odd last byte at most 0xFF. -/
theorem wordSum_le : ∀ q : List Byte, wordSum q ≤ 65535 * (q.length / 2) + 255 * (q.length % 2)
  | [] => le_rfl
  | [b] => by simpa using Nat.le_of_lt_succ b.isLt
  | hi :: lo :: q => by
    have hrest := wordSum_le q
    have hword := (be16 hi lo).isLt
    rw [wordSum_cons_cons]
    simp only [List.length_cons]
    omega

/-- R116, R119: a sum that stays below 2^32 is exact. -/
theorem fdlAdd_toNat : ∀ (q : List Byte) (acc : BitVec 32), acc.toNat + wordSum q < 2 ^ 32 →
    (fdlAdd acc q).toNat = acc.toNat + wordSum q
  | [], _, _ => rfl
  | [b], acc, h => by
    rw [wordSum_singleton] at *
    rw [fdlAdd, BitVec.toNat_add, BitVec.toNat_setWidth_of_le (by decide), Nat.mod_eq_of_lt h]
  | hi :: lo :: q, acc, h => by
    rw [wordSum_cons_cons, ← Nat.add_assoc] at *
    have hword : (acc + (be16 hi lo).setWidth 32).toNat = acc.toNat + (be16 hi lo).toNat := by
      rw [BitVec.toNat_add, BitVec.toNat_setWidth_of_le (by decide), Nat.mod_eq_of_lt (by omega)]
    rw [fdlAdd, fdlAdd_toNat q _ (hword ▸ h), hword]

/-- R117, R119: the three calls add up the two fields and the data, without a wrap if the total is below 2^32. -/
theorem fdlSum_toNat {t s : Half} {d : List Byte} (h : t.toNat + s.toNat + wordSum d < 2 ^ 32) :
    (fdlSum t s d).toNat = t.toNat + s.toNat + wordSum d := by
  have ht : (fdlAdd 0#32 (bytesOf t)).toNat = t.toNat := by
    simpa using fdlAdd_toNat (bytesOf t) 0#32 (by simp; omega)
  have hs : (fdlAdd (fdlAdd 0#32 (bytesOf t)) (bytesOf s)).toNat = t.toNat + s.toNat := by
    simpa [ht] using fdlAdd_toNat (bytesOf s) (fdlAdd 0#32 (bytesOf t)) (by simp [ht]; omega)
  rw [fdlSum, fdlAdd_toNat _ _ (hs ▸ h), hs]

theorem fdlFold_toNat (acc : BitVec 32) : (fdlFold acc).toNat = foldNat acc.toNat := by
  have hlow : (acc &&& 0xFFFF#32).toNat = acc.toNat % 65536 :=
    (BitVec.toNat_and ..).trans (Nat.and_two_pow_sub_one_eq_mod acc.toNat 16)
  rw [fdlFold, foldNat, BitVec.toNat_add, BitVec.toNat_ushiftRight, hlow, Nat.shiftRight_eq_div_pow]
  omega

/-- R118: after the second fold the accumulator has at most 16 bits. -/
theorem foldNat_foldNat_le {n : Nat} (h : n < 2 ^ 32) : foldNat (foldNat n) ≤ 0xFFFF := by
  unfold foldNat
  omega

/-- R118: the complement of a 16-bit value, on unbounded integers. -/
theorem fdlFinish_toNat (acc : BitVec 32) : (fdlFinish acc).toNat = 0xFFFF - foldNat (foldNat acc.toNat) := by
  have hfold := foldNat_foldNat_le acc.isLt
  rw [fdlFinish, BitVec.toNat_setWidth, BitVec.toNat_not, fdlFold_toNat, fdlFold_toNat]
  omega

/-- Settles O22: the sum of at most 32769 words and a byte does not wrap, so the folds are those of R118 on integers. -/
theorem fdlHasTheClosedForm : Obligations.FdlHasTheClosedForm := by
  intro t s d hd
  have hbound : t.toNat + s.toNat + wordSum d ≤ 2147516670 := by
    have hdata := wordSum_le d
    omega
  have hlt : t.toNat + s.toNat + wordSum d < 2 ^ 32 := by omega
  refine ⟨fdlSum_toNat hlt, hbound, foldNat_foldNat_le hlt, ?_⟩
  rw [fdl, fdlFinish_toNat, fdlSum_toNat hlt]

/-! ### CSUM (R121) -/

theorem exec_csum (s : State) :
    exec .csum s = orFault s.frame? fun f => .next ((s.setCsum (f.checksum s.mode)).complete okCode) := rfl

theorem exec_csum_of_frame {s : State} {f : Frame} (h : s.frame? = some f) :
    exec .csum s = .next ((s.setCsum (f.checksum s.mode)).complete okCode) := by
  rw [exec_csum, h, orFault_some]

theorem exec_csum_of_no_frame {s : State} (h : s.frame? = none) : exec .csum s = .fault .unwrittenRead := by
  rw [exec_csum, h, orFault_none]

theorem State.setCsum_complete_keepsAllBut (s : State) (v : Half) (code : BitVec 4) :
    KeepsAllBut [.fCsum, .status] s ((s.setCsum v).complete code) := by
  intro p hp
  cases p
  case fCsum | status => simp at hp
  all_goals simp [Part.Same]

/-- Settles O23: CSUM has its frame or faults, and its two register writes are all it does. -/
theorem csumComputesTheChecksum : Obligations.CsumComputesTheChecksum :=
  fun s => ⟨rfl, fun _ hf => ⟨_, exec_csum_of_frame hf, rfl, rfl, s.setCsum_complete_keepsAllBut _ _⟩,
    exec_csum_of_no_frame⟩

end Sys2Proof.Machine
end

section
/-! The byte-stuffer (42_stuffing.md): Escape (O26), its inverse (O28), the delimiters of a canonical frame (O29), and
the items that an ENCODE in progress sends (O55). -/

namespace Sys2Proof.Machine

/-! ### Escape (R140) -/

theorem special_eq_false {b : Byte} : special b = false ↔ b ≠ esc ∧ b ≠ delim := by
  rw [← Bool.not_eq_true, special_iff, not_or]

theorem escape_of_special {b : Byte} (h : special b = true) : escape b = [esc, b ^^^ escXor] := if_pos h

theorem escape_of_not_special {b : Byte} (h : special b = false) : escape b = [b] := by
  rw [escape, h]
  rfl

/-- Settles O26: the two special bytes are sent as a pair, and no other byte is. -/
theorem escapeOfEveryByte : Obligations.EscapeOfEveryByte :=
  fun b => ⟨fun h => escape_of_special ((special_iff b).2 h),
    fun hesc hdelim => escape_of_not_special (special_eq_false.2 ⟨hesc, hdelim⟩)⟩

/-! ### Reading an escaped sequence (R143, R145) -/

theorem holds_of_holds_append {m : Memory} {k : Nat} {p q : List Byte} (h : Holds m k (p ++ q)) :
    Holds m k p ∧ Holds m (k + p.length) q := by
  rw [Holds, List.length_append] at h
  refine ⟨fun j hj => ?_, fun j hj => ?_⟩
  · rw [h j (by omega), List.getElem?_append_left hj]
  · rw [Nat.add_assoc, h _ (by omega), List.getElem?_append_right (Nat.le_add_right _ _), Nat.add_sub_cancel_left]

/-- ReadField reads back the byte that was escaped, and moves past its spelling. -/
theorem readField_escape (ph : Phase) {w : Memory} {len pos : Nat} {b : Byte} (h : Holds w pos (escape b))
    (hlen : pos + (escape b).length ≤ len) : readField ph w len pos = .ok (b, pos + (escape b).length) := by
  cases hb : special b with
  | false =>
    rw [escape_of_not_special hb] at h hlen ⊢
    exact readField_literal ph hlen (h 0 Nat.one_pos) (special_eq_false.1 hb).1
  | true =>
    rw [escape_of_special hb] at h hlen ⊢
    rw [readField_pair ph hlen (h 0 Nat.two_pos) (h 1 Nat.one_lt_two), BitVec.xor_assoc, BitVec.xor_self,
      BitVec.xor_zero]
    rfl

theorem readFields_escapeSeq (ph : Phase) {w : Memory} {len : Nat} : ∀ {p : List Byte} {pos : Nat},
    Holds w pos (escapeSeq p) → pos + (escapeSeq p).length ≤ len →
      readFields ph w len p.length pos = .ok (p, pos + (escapeSeq p).length) := by
  intro p
  induction p with
  | nil => intro pos _ _; rfl
  | cons b p ih =>
    intro pos h hlen
    rw [escapeSeq_cons] at h
    rw [escapeSeq_cons, List.length_append, ← Nat.add_assoc] at hlen ⊢
    obtain ⟨hb, hp⟩ := holds_of_holds_append h
    have hfirst := readField_escape ph hb (Nat.le_of_add_right_le hlen)
    simp only [List.length_cons, readFields, hfirst, ih hp hlen, Dec.ok_bind]

/-- Settles O28: each spelling is read back as its byte, and the next one starts where the cursor then stands. -/
theorem stuffingInvertsExactly : Obligations.StuffingInvertsExactly :=
  fun ph _ _ _ _ => readFields_escapeSeq ph

/-! ### The delimiters of a canonical frame (R142, R162) -/

/-- A byte put around a list that does not hold it stands at the two ends alone. -/
theorem getElem?_enclosed {x : Byte} {q : List Byte} (hx : x ∉ q) {k : Nat} (hk : k < ([x] ++ q ++ [x]).length) :
    ([x] ++ q ++ [x])[k]? = some x ↔ k = 0 ∨ k = ([x] ++ q ++ [x]).length - 1 := by
  cases k with
  | zero => simp
  | succ k =>
    have hlast : ([x] ++ q ++ [x]).length - 1 = q.length + 1 := by simp
    rw [hlast, List.append_assoc, List.singleton_append, List.getElem?_cons_succ]
    rcases Nat.lt_or_ge k q.length with hin | hout
    · have hne : q[k]? ≠ some x := fun h => hx (List.mem_of_getElem? h)
      rw [List.getElem?_append_left hin]
      simp only [hne, false_iff]
      omega
    · obtain rfl : k = q.length := by omega
      simp

/-- Settles O29: the field bytes stand escaped between the delimiters, and no escaped byte is a raw delimiter. -/
theorem delimitersStandOnlyAtTheEnds : Obligations.DelimitersStandOnlyAtTheEnds := by
  intro f c
  rw [wireBytes_eq]
  exact ⟨by simp, fun _ => getElem?_enclosed (delim_not_mem_escapeSeq _)⟩

/-! ### What an ENCODE in progress sends (R140, R142, R163) -/

section
variable {s : State} {e : Encoder} (hw : s.work = .encoding e)
include hw

theorem exec_wireDelim_encoding : exec .wireDelim s = s.sendDelim e := by
  simp only [exec, execWireDelim, wireItem, hw]

theorem exec_wireLit_encoding {b : Byte} (hb : special b = false) : exec (.wireLit b) s = s.send e [b] := by
  simp [exec, execWireLit, wireItem, hw, hb]

theorem exec_encEscape_encoding {b : Byte} (hb : special b = true) : exec (.encEscape b) s = s.send e [b] := by
  simp [exec, execEncEscape, wireItem, hw, hb]

end

theorem State.sendDelim_leading (s : State) {e : Encoder} (h : e.out = []) :
    s.sendDelim e = .next (s.setWork (.encoding { e with out := [delim] })) := if_pos h

theorem State.sendDelim_trailing (s : State) {e : Encoder} (ho : e.out ≠ []) (hq : e.todo = []) :
    s.sendDelim e = .next ((s.setWork .idle).commitEncoded (e.out ++ [delim]) e.csum) :=
  (if_neg ho).trans (if_pos hq)

/-- The next field byte is sent in its spelling. -/
theorem State.send_byte (s : State) {e : Encoder} {b : Byte} {q : List Byte} (ho : e.out ≠ [])
    (hq : e.todo = b :: q) : GoesOn (s.send e [b]) s (.encoding ⟨e.csum, q, e.out ++ escape b⟩) := by
  rw [s.send_append ho (q := [b]) hq, escapeSeq_cons, escapeSeq_nil, List.append_nil]
  exact GoesOn.setWork s _

theorem State.setWork_commitEncoded_keepsAllBut (s : State) (w : Work) (out : List Byte) (c : Half) :
    KeepsAllBut [.wBuf, .wLen, .fCsum, .status, .work] s ((s.setWork w).commitEncoded out c) := by
  intro p hp
  cases p
  case wBuf | wLen | fCsum | status | work => simp at hp
  all_goals simp [Part.Same]

/-- Settles O55: before the first field byte and after the last the delimiter is sent, between them the next byte, each
in its spelling; the last item commits, and a length up to WIRE_CAP fits in W_LEN. -/
theorem encodeSendsFieldBytes : Obligations.EncodeSendsFieldBytes := by
  intro s e hw
  refine ⟨fun ho => ?_, fun ho b q hq => ⟨fun hesc hdelim => ?_, fun h => ?_⟩, fun ho hq hcap hs => ?_⟩
  · rw [exec_wireDelim_encoding hw, s.sendDelim_leading ho]
    exact GoesOn.setWork s _
  · have hb : special b = false := special_eq_false.2 ⟨hesc, hdelim⟩
    have hsend := s.send_byte ho hq
    rw [escape_of_not_special hb] at hsend
    rw [exec_wireLit_encoding hw hb]
    exact hsend
  · have hb : special b = true := (special_iff b).2 h
    have hsend := s.send_byte ho hq
    rw [escape_of_special hb] at hsend
    rw [exec_encEscape_encoding hw hb]
    exact hsend
  · have hlen : (e.out ++ [delim]).length = e.out.length + 1 := List.length_append
    have hfit : (e.out ++ [delim]).length ≤ s.config.wireCap := hlen.trans_le hcap
    rw [exec_wireDelim_encoding hw, s.sendDelim_trailing ho hq, ← hlen]
    exact ⟨_, _, rfl, Memory.holds_writeFrom s.wBuf 0 _, Memory.sameOutside_writeFrom s.wBuf 0 _, rfl,
      toNat_ofNat_of_le (hfit.trans hs.2) (by decide), rfl, rfl, rfl, s.setWork_commitEncoded_keepsAllBut .idle _ _⟩

end Sys2Proof.Machine
end

section
/-! The frame encoder (43_encode.md): when ENCODE fails (O33), what it writes (O32), and that DECODE after it gives the
same frame back (O43). -/

namespace Sys2Proof.Machine

/-! ### The ways ENCODE ends (R161, R163, R164) -/

/-- R161: the frame fits exactly when its doubled bound is at most WIRE_CAP. -/
theorem fits_iff {c : Config} {size : Half} : fits c size = true ↔ 2 * (8 + size.toNat) ≤ c.wireCap :=
  decide_eq_true_iff

section
variable {s : State}

theorem exec_encode_of_no_frame (h : s.frame? = none) : exec .encode s = .fault .unwrittenRead := by
  simp only [exec, execEncode, h, orFault_none]

variable {f : Frame} (h : s.frame? = some f)
include h

theorem exec_encode_of_fits (hfit : 2 * (8 + f.size.toNat) ≤ s.config.wireCap) :
    exec .encode s = .next (s.commitEncoded (wireBytes f (f.checksum s.mode)) (f.checksum s.mode)) := by
  simp only [exec, execEncode, h, orFault_some, encodeFrame, fits_iff.2 hfit, if_true]

theorem exec_encode_of_not_fits (hfit : s.config.wireCap < 2 * (8 + f.size.toNat)) :
    exec .encode s = .next (s.complete CodecError.allocationFailure.code) := by
  have hno : ¬ fits s.config f.size = true := fun hyes => Nat.not_le_of_lt hfit (fits_iff.1 hyes)
  simp only [exec, execEncode, h, orFault_some, encodeFrame, if_neg hno]

end

/-! ### What each end leaves unchanged -/

theorem State.complete_keepsAllBut (s : State) (code : BitVec 4) : KeepsAllBut [.status] s (s.complete code) := by
  intro p hp
  cases p
  case status => simp at hp
  all_goals simp [Part.Same]

theorem State.commitEncoded_keepsAllBut (s : State) (out : List Byte) (c : Half) :
    KeepsAllBut [.wBuf, .wLen, .fCsum, .status] s (s.commitEncoded out c) := by
  intro p hp
  cases p
  case wBuf | wLen | fCsum | status => simp at hp
  all_goals simp [Part.Same]

/-- Settles O33: no frame is larger than 65535 bytes, so that from the recommended capacity up every frame fits. -/
theorem encodeFailsOnlyForCapacity : Obligations.EncodeFailsOnlyForCapacity := by
  refine fun s => ⟨fun f hf => ⟨fun hfit => ?_, fun hcap => ?_⟩, exec_encode_of_no_frame⟩
  · exact ⟨_, exec_encode_of_not_fits hf hfit, rfl, s.complete_keepsAllBut _⟩
  · have hfit : 2 * (8 + f.size.toNat) ≤ s.config.wireCap := by
      have hsize := f.size.isLt
      omega
    exact ⟨_, exec_encode_of_fits hf hfit, rfl⟩

/-- R162: the length of a frame that fits is exact in W_LEN. -/
theorem wireBytes_length_toNat {s : State} {f : Frame} (hs : s.config.Ok) (hf : s.frame? = some f)
    (hfit : 2 * (8 + f.size.toNat) ≤ s.config.wireCap) (c : Half) :
    (BitVec.ofNat 18 (wireBytes f c).length).toNat = (wireBytes f c).length :=
  toNat_ofNat_of_le ((wireBytes_length_le_wireCap hf (fits_iff.2 hfit) c).trans hs.2) (by decide)

/-- Settles O32: the commit of the canonical bytes, with their length. -/
theorem encodeWritesTheFrame : Obligations.EncodeWritesTheFrame := by
  rintro s f c out hs hf hfit rfl rfl
  have hencode := exec_encode_of_fits hf hfit
  have hlen := wireBytes_length_toNat hs hf hfit (f.checksum s.mode)
  rw [wireBytes_eq] at hencode hlen
  exact ⟨_, _, hencode, Memory.holds_writeFrom s.wBuf 0 _, Memory.sameOutside_writeFrom s.wBuf 0 _, rfl, hlen, rfl, rfl,
    s.commitEncoded_keepsAllBut _ _⟩

/-! ### DecodeFrame on the canonical bytes (R180, R195) -/

/-- A big-endian field is read back from its escaped bytes. -/
theorem readHalf_escapeSeq (ph : Phase) {w : Memory} {len pos : Nat} {v : Half}
    (h : Holds w pos (escapeSeq (bytesOf v))) (hlen : pos + (escapeSeq (bytesOf v)).length ≤ len) :
    readHalf ph w len pos = .ok (v, pos + (escapeSeq (bytesOf v)).length) := by
  have hbytes : readFields ph w len 2 pos = .ok (bytesOf v, pos + (escapeSeq (bytesOf v)).length) :=
    readFields_escapeSeq ph h hlen
  rw [readHalf_eq, hbytes, Dec.ok_bind]
  exact congrArg (fun x => Except.ok (x, _)) (be16_hiByte_loByte v)

/-- The converse of `decodeFrame_ok`: where every read of DecodeFrame succeeds and every check passes, it returns the
frame. -/
theorem decodeFrame_of_reads {m : Mode} {w : Memory} {len p1 p2 p3 p4 : Nat} {f : Frame} {c : Half}
    (hmin : minFrame ≤ len) (hfirst : w.read 0 = some delim) (htype : readHalf .hdr w len 1 = .ok (f.type, p1))
    (hsize : readHalf .hdr w len p1 = .ok (f.size, p2)) (hfit : f.size.toNat ≤ len - 8)
    (hdata : readFields .data w len f.size.toNat p2 = .ok (f.data, p3))
    (hcsum : readHalf .csum w len p3 = .ok (c, p4)) (hmatch : c = checksum m f.type f.size f.data) (hroom : p4 < len)
    (hlast : w.read p4 = some delim) : decodeFrame m w len = .ok ⟨f, c, p4 + 1⟩ := by
  simp only [decodeFrame, hmin, rawByte_ok.2 hfirst, htype, hsize, hfit, hdata, hcsum, ← hmatch, hroom,
    rawByte_ok.2 hlast, decide_true, require_true, Dec.ok_bind]

/-- DecodeFrame gives back the frame of canonical bytes: it reads each field from its own run of escaped bytes. -/
theorem decodeFrame_wireBytes {m : Mode} {f : Frame} {c : Half} {w : Memory} (hsize : f.data.length = f.size.toNat)
    (hc : c = f.checksum m) (h : Holds w 0 (wireBytes f c)) :
    decodeFrame m w (wireBytes f c).length = .ok ⟨f, c, (wireBytes f c).length⟩ := by
  have hcount := wireBytes_length f c
  have hlen : (wireBytes f c).length = 1 + (escapeSeq (bytesOf f.type)).length + (escapeSeq (bytesOf f.size)).length +
      (escapeSeq f.data).length + (escapeSeq (bytesOf c)).length + 1 := by
    simp only [wireBytes, List.length_append, List.length_singleton]
  obtain ⟨h, hlast⟩ := holds_of_holds_append h
  obtain ⟨h, hcsum⟩ := holds_of_holds_append h
  obtain ⟨h, hdata⟩ := holds_of_holds_append h
  obtain ⟨h, hfsize⟩ := holds_of_holds_append h
  obtain ⟨hfirst, htype⟩ := holds_of_holds_append h
  simp only [List.length_append, List.length_singleton, Nat.zero_add] at hlast hcsum hdata hfsize htype
  have hread := readFields_escapeSeq .data hdata (len := (wireBytes f c).length) (by omega)
  rw [hsize] at hread
  have hdecode := decodeFrame_of_reads (by rw [minFrame]; omega) (hfirst 0 Nat.one_pos)
    (readHalf_escapeSeq .hdr htype (by omega)) (readHalf_escapeSeq .hdr hfsize (by omega)) (by omega) hread
    (readHalf_escapeSeq .csum hcsum (by omega)) hc (by omega) (hlast 0 Nat.one_pos)
  rwa [← hlen] at hdecode

/-! ### ENCODE and then DECODE (R163, R191, R195) -/

/-- Bytes that stand in a buffer may be written there again: every byte reads as before. -/
theorem Memory.read_writeFrom_of_holds {m : Memory} {k : Nat} {bs : List Byte} (h : Holds m k bs) (a : Nat) :
    (Memory.writeFrom m k bs).read a = m.read a := by
  by_cases hin : k ≤ a ∧ a < k + bs.length
  · obtain ⟨j, rfl⟩ := Nat.exists_eq_add_of_le hin.1
    have hj : j < bs.length := by omega
    rw [Memory.holds_writeFrom m k bs j hj, h j hj]
  · exact Memory.sameOutside_writeFrom m k bs a (by omega)

/-- R191: the commit of what the registers already hold changes nothing. -/
theorem State.commitDecoded_keepsAll {s : State} {r : Decoded} (hframe : s.frame? = some r.frame)
    (hcsum : s.fCsum = .written r.csum) (hstatus : s.status = okCode) : KeepsAllBut [] s (s.commitDecoded r) := by
  obtain ⟨htype, hsize, -, hdata⟩ := State.frame?_eq_some.1 hframe
  intro p _
  cases p
  case fData => exact Memory.read_writeFrom_of_holds hdata
  all_goals simp [Part.Same, htype, hsize, hcsum, hstatus]

theorem State.frame?_commitDecoded (s : State) {r : Decoded} (h : r.frame.data.length = r.frame.size.toNat) :
    (s.commitDecoded r).frame? = some r.frame :=
  State.frame?_eq_some.2 ⟨rfl, rfl, h, Memory.holds_writeFrom s.fData 0 _⟩

theorem State.frame?_commitEncoded (s : State) (out : List Byte) (c : Half) :
    (s.commitEncoded out c).frame? = s.frame? := rfl

/-- R195: after the commit of a frame's canonical bytes, DECODE commits the frame and the same checksum. -/
theorem exec_decode_commitEncoded {s : State} {f : Frame} {c : Half} (hs : s.config.Ok) (hf : s.frame? = some f)
    (hfit : 2 * (8 + f.size.toNat) ≤ s.config.wireCap) (hc : c = f.checksum s.mode) :
    exec .decode (s.commitEncoded (wireBytes f c) c) =
      .next ((s.commitEncoded (wireBytes f c) c).commitDecoded ⟨f, c, (wireBytes f c).length⟩) := by
  refine (execDecode_eq (s.commitEncoded_wLen _ _)).trans ?_
  rw [State.commitEncoded_mode, State.commitEncoded_wBuf, wireBytes_length_toNat hs hf hfit,
    decodeFrame_wireBytes (State.frame?_length hf) hc (Memory.holds_writeFrom s.wBuf 0 _), State.endDecode]

/-- Settles O43: only a frame that fits ends ENCODE with STATUS 0, and DECODE then commits what already stands there. -/
theorem encodeThenDecodeKeepsTheFrame : Obligations.EncodeThenDecodeKeepsTheFrame := by
  intro s t f hs hf hencode hstatus
  rcases Nat.lt_or_ge s.config.wireCap (2 * (8 + f.size.toNat)) with hsmall | hfit
  · rw [exec_encode_of_not_fits hf hsmall] at hencode
    cases hencode
    exact absurd hstatus (by simp [CodecError.code])
  · rw [exec_encode_of_fits hf hfit] at hencode
    cases hencode
    exact ⟨_, exec_decode_commitEncoded hs hf hfit rfl, State.frame?_commitDecoded _ (State.frame?_length hf), rfl,
      State.commitDecoded_keepsAll ((s.frame?_commitEncoded _ _).trans hf) (s.commitEncoded_fCsum _ _) rfl⟩

end Sys2Proof.Machine
end

section
/-! The frame decoder (44_decode.md): what DecodeFrame reads (O40), that it inverts EncodeFrame (O42), which check decides
an error (O35), what it accepts (O36), and how DECODE ends (O34, O37, O39). -/

namespace Sys2Proof.Machine

/-! ### DecodeFrame and the canonical frame (R195) -/

/-- Settles O42: what EncodeFrame answers is the canonical wire bytes of the frame and its checksum. -/
theorem decodeInvertsEncodeFrame : Obligations.DecodeInvertsEncodeFrame := by
  intro c m f out ck w hsize hencode hw
  obtain ⟨-, rfl, hck⟩ := encodeFrame_ok hencode
  exact decodeFrame_wireBytes hsize hck hw

/-! ### The reads of DecodeFrame (R196) -/

/-- A byte that is read only below the length is the same in buffers that agree there. -/
theorem rawByte_bind_congr {α : Type} {w w' : Memory} {len pos : Nat} (h : ∀ k < len, w'.read k = w.read k)
    (e : CodecError) (k : Byte → Dec α) :
    (require (pos < len) e >>= fun _ => rawByte w' pos >>= k) = require (pos < len) e >>= fun _ => rawByte w pos >>= k := by
  by_cases hpos : pos < len
  · simp only [rawByte, h pos hpos]
  · simp only [decide_eq_false hpos, require_false, Dec.error_bind]

/-- Settles O40: every read of DecodeFrame comes after a bounds check, the first one after the check of R181. -/
theorem decodeReadsBelowTheLength : Obligations.DecodeReadsBelowTheLength := by
  intro m w w' len h
  rw [decodeFrame_eq, decodeFrame_eq]
  by_cases hlen : 8 ≤ len
  · have hfirst : rawByte w' 0 = rawByte w 0 := by simp only [rawByte, h 0 (by omega)]
    simp only [hfirst, readFields_congr h, rawByte_bind_congr h]
  · simp only [decide_eq_false hlen, require_false, Dec.error_bind]

/-! ### The order of the checks (R194) -/

theorem decodeFrame_tooShort (m : Mode) (w : Memory) {len : Nat} (h : len < 8) :
    decodeFrame m w len = .error (.error .tooShort) := by
  simp only [decodeFrame_eq, decide_eq_false (Nat.not_le.2 h), require_false, Dec.error_bind]

section
variable {α : Type} {p : Prop} [Decidable p]

theorem require_bind_of_pos (h : p) (e : CodecError) (k : Unit → Dec α) : (require p e >>= k) = k () := by
  rw [decide_eq_true h, require_true, Dec.ok_bind]

theorem require_bind_of_neg (h : ¬ p) (e : CodecError) (k : Unit → Dec α) :
    (require p e >>= k) = .error (.error e) := by
  rw [decide_eq_false h, require_false, Dec.error_bind]

variable {w : Memory} {pos : Nat}

theorem rawByte_bind_of_some {x : Byte} (h : w.read pos = some x) (k : Byte → Dec α) : (rawByte w pos >>= k) = k x := by
  rw [rawByte_ok.2 h, Dec.ok_bind]

theorem rawByte_bind_of_none (h : w.read pos = none) (k : Byte → Dec α) : (rawByte w pos >>= k) = .error .unwritten := by
  simp only [rawByte, h, Dec.error_bind]

end

/-- R146, R31: a run of field bytes that stops reports its phase's error or an unwritten byte. -/
theorem readFields_error_cases {ph : Phase} {w : Memory} {len n pos : Nat} {e : DecodeStop}
    (h : readFields ph w len n pos = .error e) : e = .error (outOfData ph) ∨ e = .unwritten :=
  (readFields_error h).imp_right And.left

/-- Settles O35: `decodeFrame_eq` is the checks in the order of R194, and where one passes only those after it are left. -/
theorem firstFailingCheckIsReported : Obligations.FirstFailingCheckIsReported := by
  intro m w len
  refine ⟨decodeFrame_tooShort m w, decodeFrame_first_unwritten m, fun hlen x hx => ?_⟩
  generalize hframe : decodeFrame m w len = result
  rw [decodeFrame_eq, require_bind_of_pos hlen, rawByte_bind_of_some hx] at hframe
  refine ⟨fun hne => hframe.symm.trans (require_bind_of_neg hne _ _), fun hdelim => ?_⟩
  rw [require_bind_of_pos (p := x = delim) hdelim] at hframe
  refine ⟨fun e he => ⟨by rw [← hframe, he, Dec.error_bind], readFields_error_cases he⟩, fun a b c d p hhdr => ?_⟩
  simp only [hhdr, Dec.ok_bind, List.getD_cons_zero, List.getD_cons_succ] at hframe
  refine ⟨fun hbig => hframe.symm.trans (require_bind_of_neg (Nat.not_le.2 hbig) _ _), fun hfit => ?_⟩
  rw [require_bind_of_pos hfit] at hframe
  refine ⟨fun e he => ⟨by rw [← hframe, he, Dec.error_bind], readFields_error_cases he⟩, fun q p' hdata => ?_⟩
  rw [hdata, Dec.ok_bind] at hframe
  refine ⟨fun e he => ⟨by rw [← hframe, he, Dec.error_bind], readFields_error_cases he⟩, fun h l p'' hcsum => ?_⟩
  simp only [hcsum, Dec.ok_bind, List.getD_cons_zero, List.getD_cons_succ] at hframe
  refine ⟨fun hne => hframe.symm.trans (require_bind_of_neg hne _ _), fun hmatch => ?_⟩
  rw [require_bind_of_pos hmatch] at hframe
  refine ⟨fun hout => hframe.symm.trans (require_bind_of_neg (Nat.not_lt.2 hout) _ _), fun hroom hnone => ?_,
    fun hroom y hy => ?_⟩
  · rw [← hframe, require_bind_of_pos hroom, rawByte_bind_of_none hnone]
  · rw [require_bind_of_pos hroom, rawByte_bind_of_some hy] at hframe
    exact ⟨fun hne => hframe.symm.trans (require_bind_of_neg hne _ _),
      fun hlast => hframe.symm.trans (require_bind_of_pos (p := y = delim) hlast _ _)⟩

/-! ### What DecodeFrame accepts (R182 to R189) -/

/-- A big-endian field takes two raw bytes or more. -/
theorem readHalf_cursor {ph : Phase} {w : Memory} {len pos p : Nat} {v : Half} (h : readHalf ph w len pos = .ok (v, p)) :
    pos + 2 ≤ p := by
  obtain ⟨q, hq, -⟩ := readHalf_readFields h
  exact (readFields_ok hq).2.1

/-- Settles O36: the checks that an accepted frame passed; its six field bytes besides the data take six raw bytes or more. -/
theorem acceptedFramesAreValid : Obligations.AcceptedFramesAreValid := by
  intro m w len r h
  obtain ⟨-, hfirst, p1, p2, p3, p4, htype, hsize, -, hdata, hcsum, hmatch, hroom, hlast, hused⟩ := decodeFrame_ok h
  obtain ⟨hlength, hp3, -⟩ := readFields_ok hdata
  have hp1 := readHalf_cursor htype
  have hp2 := readHalf_cursor hsize
  have hp4 := readHalf_cursor hcsum
  rw [hused]
  exact ⟨hmatch, hlength, by omega, hroom, hfirst, hlast⟩

/-! ### The ways DECODE ends (R181, R191, R192) -/

theorem State.commitDecoded_keepsAllBut (s : State) (r : Decoded) :
    KeepsAllBut [.fType, .fSize, .fData, .fCsum, .status] s (s.commitDecoded r) := by
  intro p hp
  cases p
  case fType | fSize | fData | fCsum | status => simp at hp
  all_goals simp [Part.Same]

/-- If DECODE completes, it commits the frame that DecodeFrame returned, or it writes the code of the error. -/
theorem exec_decode_next {s t : State} (h : exec .decode s = .next t) :
    (∃ r, t = s.commitDecoded r) ∨ ∃ e : CodecError, t = s.complete e.code := by
  cases execDecode_effect h
  case decoded r hl hr => exact .inl ⟨_, rfl⟩
  case decodeFailed e hl he => exact .inr ⟨_, rfl⟩
  all_goals contradiction

/-- Settles O34: DecodeFrame reports TooShort before it reads a byte. -/
theorem shortBuffersAreTooShort : Obligations.ShortBuffersAreTooShort := by
  intro s l hl hlen
  have hdecode : exec .decode s = s.endDecode (decodeFrame s.mode s.wBuf l.toNat) := execDecode_eq hl
  rw [decodeFrame_tooShort _ _ hlen] at hdecode
  exact ⟨_, hdecode, rfl, s.complete_keepsAllBut _⟩

/-- Settles O37: the commit of the frame that DecodeFrame returned, of which the size is the data's length (O36). -/
theorem decodeCommitsTheFrame : Obligations.DecodeCommitsTheFrame := by
  intro s l r hl hr
  have hdecode : exec .decode s = s.endDecode (decodeFrame s.mode s.wBuf l.toNat) := execDecode_eq hl
  obtain ⟨-, hlength, -⟩ := acceptedFramesAreValid _ _ _ _ hr
  rw [hr] at hdecode
  refine ⟨_, hdecode, rfl, rfl, Memory.holds_writeFrom s.fData 0 _, ?_, rfl, rfl, s.commitDecoded_keepsAllBut r⟩
  exact hlength ▸ Memory.sameOutside_writeFrom s.fData 0 _

/-- Settles O39: the commit of a frame leaves STATUS 0, so a DECODE that ends otherwise wrote the code of an error. -/
theorem failedDecodeWritesOnlyStatus : Obligations.FailedDecodeWritesOnlyStatus := by
  intro s t h hstatus
  rcases exec_decode_next h with ⟨r, rfl⟩ | ⟨e, rfl⟩
  · exact absurd rfl hstatus
  · exact s.complete_keepsAllBut _

end Sys2Proof.Machine
end

section
/-! A flip of one bit on the wire (44_decode.md R197, O44): it changes one bit of one data byte, and a change of one data
byte changes the checksum, under both modes. -/

namespace Sys2Proof.Machine

/-! ### The shifts of crc_step lose nothing (41_checksum.md R111) -/

theorem crcShift_xor (x y : Half) : crcShift (x ^^^ y) = crcShift x ^^^ crcShift y := by
  simp only [crcShift, BitVec.getLsbD_xor, BitVec.shiftLeft_xor_distrib]
  cases x.getLsbD 15 <;> cases y.getLsbD 15
  case true.true => simp [BitVec.xor_assoc, BitVec.xor_comm poly]
  all_goals simp only [Bool.bne_false, Bool.bne_true, Bool.not_false, if_true, if_false, Bool.false_eq_true]
  all_goals ac_rfl

theorem crcShift_iterate_xor (n : Nat) : ∀ x y : Half, crcShift^[n] (x ^^^ y) = crcShift^[n] x ^^^ crcShift^[n] y := by
  induction n with
  | zero => exact fun _ _ => rfl
  | succ n ih => intro x y; simp only [Function.iterate_succ_apply, crcShift_xor, ih]

theorem crcShift_of_top_clear {c : Half} (h : c.getLsbD 15 = false) : crcShift c = c <<< 1 := by
  rw [crcShift, h, if_neg Bool.false_ne_true]

/-- The bit that is shifted out comes back as bit 0, as the polynomial is odd. -/
theorem crcShift_getLsbD_zero (c : Half) : (crcShift c).getLsbD 0 = c.getLsbD 15 := by
  unfold crcShift
  cases h : c.getLsbD 15 <;> simp [poly]

theorem getLsbD_top (c : Half) : c.getLsbD 15 = decide (c.toNat / 2 ^ 15 = 1) := by
  rw [← BitVec.testBit_toNat, Nat.testBit_eq_decide_div_mod_eq, Nat.mod_eq_of_lt (by omega)]

theorem crcShift_eq_zero {c : Half} (h : crcShift c = 0#16) : c = 0#16 := by
  have htop : c.getLsbD 15 = false := by rw [← crcShift_getLsbD_zero, h]; rfl
  have hshift := congrArg BitVec.toNat ((crcShift_of_top_clear htop).symm.trans h)
  rw [BitVec.toNat_shiftLeft, Nat.shiftLeft_eq, BitVec.toNat_ofNat] at hshift
  rw [getLsbD_top, decide_eq_false_iff_not] at htop
  apply BitVec.eq_of_toNat_eq
  rw [BitVec.toNat_ofNat]
  omega

theorem crcShift_injective : Function.Injective crcShift := by
  intro x y h
  have hzero : crcShift (x ^^^ y) = 0#16 := by rw [crcShift_xor, h, BitVec.xor_self]
  exact BitVec.xor_eq_zero_iff.1 (crcShift_eq_zero hzero)

/-- As long as no bit is shifted out, the shifts are plain ones. -/
theorem crcShift_iterate_of_lt : ∀ (n : Nat) (c : Half), c.toNat * 2 ^ n < 2 ^ 16 → crcShift^[n] c = c <<< n := by
  intro n
  induction n with
  | zero => intro c _; simp
  | succ n ih =>
    intro c hc
    rw [Nat.pow_succ', ← Nat.mul_assoc] at hc
    have hlt : c.toNat * 2 < 2 ^ 16 := Nat.lt_of_le_of_lt (Nat.le_mul_of_pos_right _ (Nat.two_pow_pos n)) hc
    have htop : c.getLsbD 15 = false := by rw [getLsbD_top, decide_eq_false_iff_not]; omega
    have hdouble : (c <<< 1).toNat = c.toNat * 2 := by
      rw [BitVec.toNat_shiftLeft, Nat.shiftLeft_eq, Nat.mod_eq_of_lt hlt]
    rw [Function.iterate_succ_apply, crcShift_of_top_clear htop, ih _ (hdouble ▸ hc), ← BitVec.shiftLeft_add,
      Nat.add_comm]

/-! ### BootROM finds a change of one byte (R113, R114) -/

theorem be16_xor (hi lo hi' lo' : Byte) : be16 hi lo ^^^ be16 hi' lo' = be16 (hi ^^^ hi') (lo ^^^ lo') :=
  BitVec.xor_append

/-- R113: the table's step is the eight shifts of R111, after the byte went into the register's high half: the shifts are
linear, and of the low half no bit is shifted out. -/
theorem crcUpdate_eq_crcStep (r : Half) (b : Byte) : crcUpdate r b = crcStep (r ^^^ be16 b 0#8) := by
  have hr : (be16 (hiByte r) (loByte r)).toNat = r.toNat := by rw [be16_hiByte_loByte]
  have hlow : (be16 0#8 (loByte r)).toNat = (loByte r).toNat := by simp [be16_toNat]
  rw [be16_toNat] at hr
  have hshifts : crcStep (be16 0#8 (loByte r)) = r <<< 8 := by
    rw [crcStep, crcShift_iterate_of_lt 8 _ (by omega)]
    apply BitVec.eq_of_toNat_eq
    simp only [BitVec.toNat_shiftLeft, Nat.shiftLeft_eq, hlow]
    omega
  have hsplit : r ^^^ be16 b 0#8 = be16 0#8 (loByte r) ^^^ be16 (hiByte r ^^^ b) 0#8 := calc
    r ^^^ be16 b 0#8 = be16 (hiByte r) (loByte r) ^^^ be16 b 0#8 := by rw [be16_hiByte_loByte]
    _ = be16 0#8 (loByte r) ^^^ be16 (hiByte r ^^^ b) 0#8 := by simp only [be16_xor, BitVec.xor_zero, BitVec.zero_xor]
  calc crcUpdate r b = crcStep (be16 0#8 (loByte r)) ^^^ crcStep (be16 (hiByte r ^^^ b) 0#8) := by rw [hshifts]; rfl
    _ = crcStep (r ^^^ be16 b 0#8) := by rw [hsplit]; exact (crcShift_iterate_xor 8 _ _).symm

theorem crcStep_injective : Function.Injective crcStep := crcShift_injective.iterate 8

theorem crcUpdate_left_injective (b : Byte) : Function.Injective fun r => crcUpdate r b := by
  intro x y h
  simp only [crcUpdate_eq_crcStep] at h
  exact (BitVec.xor_left_inj _).1 (crcStep_injective h)

theorem crcUpdate_right_injective (r : Half) : Function.Injective (crcUpdate r) := by
  intro x y h
  simp only [crcUpdate_eq_crcStep] at h
  have hword := (BitVec.xor_right_inj _).1 (crcStep_injective h)
  rw [← hiByte_be16 x 0#8, hword, hiByte_be16]

theorem foldl_crcUpdate_injective : ∀ q : List Byte, Function.Injective fun r => q.foldl crcUpdate r
  | [] => Function.injective_id
  | b :: q => (foldl_crcUpdate_injective q).comp (crcUpdate_left_injective b)

theorem crc_replace_ne {x y : Byte} (h : x ≠ y) (p q : List Byte) : crc (p ++ x :: q) ≠ crc (p ++ y :: q) := by
  simp only [crc, List.foldl_append, List.foldl_cons]
  exact fun heq => h (crcUpdate_right_injective _ (foldl_crcUpdate_injective q heq))

/-! ### FDL finds a change of one byte (R116 to R119) -/

/-- R119: a byte of the data counts for itself, or 256 times where it is the first of its word. -/
theorem wordSum_replace (x y : Byte) (q : List Byte) : ∀ p : List Byte, ∃ v, (v = 1 ∨ v = 256) ∧
    wordSum (p ++ x :: q) + v * y.toNat = wordSum (p ++ y :: q) + v * x.toNat
  | [] => by
    cases q with
    | nil => exact ⟨1, .inl rfl, by simp [Nat.add_comm]⟩
    | cons lo q =>
      refine ⟨256, .inr rfl, ?_⟩
      simp only [List.nil_append, wordSum_cons_cons, be16_toNat]
      omega
  | [hi] => by
    refine ⟨1, .inl rfl, ?_⟩
    simp only [List.singleton_append, wordSum_cons_cons, be16_toNat]
    omega
  | hi :: lo :: p => by
    obtain ⟨v, hv, hsum⟩ := wordSum_replace x y q p
    refine ⟨v, hv, ?_⟩
    simp only [List.cons_append, wordSum_cons_cons]
    omega

/-- R118: folding keeps the sum modulo 65535. -/
theorem foldNat_mod (n : Nat) : foldNat n % 65535 = n % 65535 := by
  unfold foldNat
  omega

/-- The sum changes by less than 65535, which the folds keep and the complement shows. -/
theorem fdl_replace_ne {t z : Half} {x y : Byte} (h : x ≠ y) {p q : List Byte} (hlen : (p ++ x :: q).length ≤ 65535) :
    fdl t z (p ++ x :: q) ≠ fdl t z (p ++ y :: q) := by
  intro heq
  have hlen' : (p ++ y :: q).length ≤ 65535 := by simpa using hlen
  obtain ⟨-, -, hxle, hx⟩ := fdlHasTheClosedForm t z _ hlen
  obtain ⟨-, -, hyle, hy⟩ := fdlHasTheClosedForm t z _ hlen'
  have hfold : foldNat (foldNat (t.toNat + z.toNat + wordSum (p ++ x :: q))) =
      foldNat (foldNat (t.toNat + z.toNat + wordSum (p ++ y :: q))) := by
    rw [heq] at hx
    omega
  have hmod := congrArg (· % 65535) hfold
  simp only [foldNat_mod] at hmod
  obtain ⟨v, hv, hsum⟩ := wordSum_replace x y q p
  have hne : x.toNat ≠ y.toNat := fun hnat => h (BitVec.eq_of_toNat_eq hnat)
  have hxlt := x.isLt
  have hylt := y.isLt
  rcases hv with rfl | rfl <;> omega

/-- R120: under both modes a change of one data byte changes the checksum. -/
theorem checksum_set_ne (m : Mode) (t z : Half) {d : List Byte} {n : Nat} {b b' : Byte} (hd : d.length ≤ 65535)
    (hb : d[n]? = some b) (h : b' ≠ b) : checksum m t z (d.set n b') ≠ checksum m t z d := by
  obtain ⟨hn, rfl⟩ := List.getElem?_eq_some_iff.1 hb
  obtain ⟨p, q, hdata, -, hset⟩ := List.exists_of_set (a' := b') hn
  have hd' : (p ++ b' :: q).length ≤ 65535 := by rw [← hset, List.length_set]; exact hd
  rw [hset]
  generalize d[n] = b at *
  subst hdata
  cases m with
  | bootRom =>
    simp only [checksum, bootRom, cin, ← List.append_assoc]
    exact crc_replace_ne h _ q
  | fdl => exact fdl_replace_ne h hd'

/-! ### Reading flipped bytes (42_stuffing.md R143) -/

/-- A change of the last raw byte of a spelling, which makes and takes no escape byte, changes the byte it spells alike. -/
theorem readField_flip (ph : Phase) {w : Memory} {len pos k : Nat} {b y e : Byte} (hy : (escape b)[k]? = some y)
    (hesc : y ≠ esc) (hesc' : y ^^^ e ≠ esc) (h : Holds w pos ((escape b).set k (y ^^^ e)))
    (hlen : pos + (escape b).length ≤ len) :
    readField ph w len pos = .ok (b ^^^ e, pos + (escape b).length) := by
  cases hb : special b with
  | false =>
    rw [escape_of_not_special hb] at h hlen hy ⊢
    match k, hy with
    | 0, rfl => exact readField_literal ph hlen (h 0 Nat.one_pos) hesc'
  | true =>
    rw [escape_of_special hb] at h hlen hy ⊢
    match k, hy with
    | 0, rfl => exact absurd rfl hesc
    | 1, rfl =>
      rw [readField_pair ph hlen (h 0 Nat.two_pos) (h 1 Nat.one_lt_two)]
      simp [BitVec.xor_assoc]

/-- The same in an escaped sequence: one of its bytes is changed, and the cursor moves as it did. -/
theorem readFields_flip (ph : Phase) {w : Memory} {len : Nat} {y e : Byte} (hesc : y ≠ esc) (hesc' : y ^^^ e ≠ esc) :
    ∀ {p : List Byte} {pos k : Nat}, (escapeSeq p)[k]? = some y → Holds w pos ((escapeSeq p).set k (y ^^^ e)) →
      pos + (escapeSeq p).length ≤ len → ∃ n b, p[n]? = some b ∧
        readFields ph w len p.length pos = .ok (p.set n (b ^^^ e), pos + (escapeSeq p).length) := by
  intro p
  induction p with
  | nil => intro pos k hy; simp at hy
  | cons b p ih =>
    intro pos k hy h hlen
    rw [escapeSeq_cons] at hy h
    rw [escapeSeq_cons, List.length_append, ← Nat.add_assoc] at hlen ⊢
    rcases Nat.lt_or_ge k (escape b).length with hin | hout
    · rw [List.getElem?_append_left hin] at hy
      rw [List.set_append_left _ _ hin] at h
      obtain ⟨hb, hp⟩ := holds_of_holds_append h
      rw [List.length_set] at hp
      have hfirst := readField_flip ph hy hesc hesc' hb (Nat.le_of_add_right_le hlen)
      refine ⟨0, b, rfl, ?_⟩
      simp only [List.length_cons, readFields, hfirst, readFields_escapeSeq ph hp hlen, Dec.ok_bind, List.set_cons_zero]
    · rw [List.getElem?_append_right hout] at hy
      rw [List.set_append_right _ _ hout] at h
      obtain ⟨hb, hp⟩ := holds_of_holds_append h
      have hfirst := readField_escape ph hb (Nat.le_of_add_right_le hlen)
      obtain ⟨n, c, hc, hrest⟩ := ih hy hp hlen
      refine ⟨n + 1, c, hc, ?_⟩
      simp only [List.length_cons, readFields, hfirst, hrest, Dec.ok_bind, List.set_cons_succ]

/-! ### A canonical frame with other data bytes (R188, R197) -/

/-- R188: where the header, the data and the checksum can be read and the checksum is another one, DecodeFrame reports it. -/
theorem decodeFrame_of_mismatch {m : Mode} {w : Memory} {len p1 p2 p3 p4 : Nat} {f : Frame} {c : Half}
    (hmin : minFrame ≤ len) (hfirst : w.read 0 = some delim) (htype : readHalf .hdr w len 1 = .ok (f.type, p1))
    (hsize : readHalf .hdr w len p1 = .ok (f.size, p2)) (hfit : f.size.toNat ≤ len - 8)
    (hdata : readFields .data w len f.size.toNat p2 = .ok (f.data, p3))
    (hcsum : readHalf .csum w len p3 = .ok (c, p4)) (hne : c ≠ checksum m f.type f.size f.data) :
    decodeFrame m w len = .error (.error .checksumMismatch) := by
  simp only [decodeFrame, hmin, rawByte_ok.2 hfirst, htype, hsize, hfit, hdata, hcsum, hne, decide_true, decide_false,
    require_true, require_false, Dec.ok_bind, Dec.error_bind]

/-- R70: the raw bytes before the data of a canonical frame. -/
def headerBytes (f : Frame) : List Byte := [delim] ++ escapeSeq (bytesOf f.type) ++ escapeSeq (bytesOf f.size)

theorem headerBytes_length (f : Frame) :
    (headerBytes f).length = 1 + (escapeSeq (bytesOf f.type)).length + (escapeSeq (bytesOf f.size)).length := by
  simp only [headerBytes, List.length_append, List.length_singleton]

theorem wireBytes_length_fields (f : Frame) (c : Half) : (wireBytes f c).length =
    (headerBytes f).length + (escapeSeq f.data).length + (escapeSeq (bytesOf c)).length + 1 := by
  simp only [wireBytes, headerBytes, List.length_append, List.length_singleton]

section
variable {f : Frame} {k : Nat} (hlo : (headerBytes f).length ≤ k)
  (hhi : k < (headerBytes f).length + (escapeSeq f.data).length)
include hlo hhi

theorem wireBytes_getElem?_data (c : Half) :
    (wireBytes f c)[k]? = (escapeSeq f.data)[k - (headerBytes f).length]? := by
  have hdata : k < (headerBytes f ++ escapeSeq f.data).length := by rwa [List.length_append]
  have hcsum : k < (headerBytes f ++ escapeSeq f.data ++ escapeSeq (bytesOf c)).length := by
    rw [List.length_append]
    omega
  rw [wireBytes, ← headerBytes, List.getElem?_append_left hcsum, List.getElem?_append_left hdata,
    List.getElem?_append_right hlo]

theorem wireBytes_set_data (c : Half) (x : Byte) : (wireBytes f c).set k x =
    headerBytes f ++ (escapeSeq f.data).set (k - (headerBytes f).length) x ++ escapeSeq (bytesOf c) ++ [delim] := by
  have hdata : k < (headerBytes f ++ escapeSeq f.data).length := by rwa [List.length_append]
  have hcsum : k < (headerBytes f ++ escapeSeq f.data ++ escapeSeq (bytesOf c)).length := by
    rw [List.length_append]
    omega
  rw [wireBytes, ← headerBytes, List.set_append_left _ _ hcsum, List.set_append_left _ _ hdata,
    List.set_append_right _ _ hlo]

end

/-- DecodeFrame on a canonical frame of which the raw bytes of the data are others, as many, and spell the data d. -/
theorem decodeFrame_of_changed_data {m : Mode} {w : Memory} {f : Frame} {c : Half} {raw d : List Byte}
    (hsize : f.data.length = f.size.toNat)
    (h : Holds w 0 (headerBytes f ++ raw ++ escapeSeq (bytesOf c) ++ [delim]))
    (hraw : raw.length = (escapeSeq f.data).length)
    (hdata : readFields .data w (wireBytes f c).length f.size.toNat (headerBytes f).length =
      .ok (d, (headerBytes f).length + raw.length))
    (hne : c ≠ checksum m f.type f.size d) :
    decodeFrame m w (wireBytes f c).length = .error (.error .checksumMismatch) := by
  have hcount := wireBytes_length f c
  have hlen := wireBytes_length_fields f c
  have hhdr := headerBytes_length f
  obtain ⟨h, -⟩ := holds_of_holds_append h
  obtain ⟨h, hcsum⟩ := holds_of_holds_append h
  obtain ⟨h, -⟩ := holds_of_holds_append h
  obtain ⟨h, hfsize⟩ := holds_of_holds_append h
  obtain ⟨hfirst, htype⟩ := holds_of_holds_append h
  simp only [List.length_append, List.length_singleton, Nat.zero_add] at hcsum hfsize htype
  rw [hhdr] at hcsum hdata hlen
  have hreadtype := readHalf_escapeSeq .hdr htype (len := (wireBytes f c).length) (by omega)
  have hreadsize := readHalf_escapeSeq .hdr hfsize (len := (wireBytes f c).length) (by omega)
  have hreadcsum := readHalf_escapeSeq .csum hcsum (len := (wireBytes f c).length) (by omega)
  have hfit : f.size.toNat ≤ (wireBytes f c).length - 8 := by omega
  exact decodeFrame_of_mismatch (f := ⟨f.type, f.size, d⟩) (by rw [minFrame]; omega) (hfirst 0 Nat.one_pos) hreadtype
    hreadsize hfit hdata hreadcsum hne

theorem shiftLeft_one_ne_zero {j : Nat} (h : j < 8) : (1#8 <<< j : Byte) ≠ 0#8 := by
  interval_cases j <;> decide

/-- Settles O44: the flip changes one bit of one data byte, so it changes the checksum that the sent one is held against. -/
theorem singleBitFlipsAreCaught : Obligations.SingleBitFlipsAreCaught := by
  rintro m f w k j y _ hsize rfl hlo hhi hj hy hesc hesc' h
  rw [← headerBytes_length] at hlo hhi ⊢
  rw [wireBytes_getElem?_data hlo hhi] at hy
  rw [wireBytes_set_data hlo hhi] at h
  have hdata : Holds w (headerBytes f).length
      ((escapeSeq f.data).set (k - (headerBytes f).length) (y ^^^ (1#8 <<< j))) := by
    obtain ⟨hbefore, -⟩ := holds_of_holds_append h
    obtain ⟨hbefore, -⟩ := holds_of_holds_append hbefore
    simpa only [Nat.zero_add] using (holds_of_holds_append hbefore).2
  have hend : (headerBytes f).length + (escapeSeq f.data).length ≤ (wireBytes f (f.checksum m)).length := by
    have hlen := wireBytes_length_fields f (f.checksum m)
    omega
  obtain ⟨n, b, hb, hread⟩ := readFields_flip .data hesc hesc' hy hdata hend
  have hflip : b ^^^ (1#8 <<< j) ≠ b := fun heq => shiftLeft_one_ne_zero hj (xor_left_eq_self_iff.1 heq)
  have hmax : f.data.length ≤ 65535 := by
    have hlt := f.size.isLt
    omega
  have hne := checksum_set_ne m f.type f.size hmax hb hflip
  rw [hsize] at hread
  refine ⟨decodeFrame_of_changed_data hsize h (List.length_set ..) ?_ hne.symm, n, b, hb, hread⟩
  rw [List.length_set]
  exact hread

end Sys2Proof.Machine
end

section
/-! The host access commands (45_host_access.md): what each writes (O45 to O48) and what each answers with (O49 to O51). -/

namespace Sys2Proof.Machine

/-! ### What one write leaves unchanged -/

theorem keepsAllBut_iff {ps : List Part} {s t : State} : KeepsAllBut ps s t ↔ ∀ p, p ∈ ps ∨ p.Same s t :=
  forall_congr' fun _ => or_iff_not_imp_left.symm

theorem State.setType_keepsAllBut (s : State) (v : Half) : KeepsAllBut [.fType] s (s.setType v) :=
  keepsAllBut_iff.2 fun p => by cases p <;> simp [Part.Same]

theorem State.setSize_keepsAllBut (s : State) (v : Half) : KeepsAllBut [.fSize] s (s.setSize v) :=
  keepsAllBut_iff.2 fun p => by cases p <;> simp [Part.Same]

theorem State.setData_keepsAllBut (s : State) (k : Nat) (bs : List Byte) : KeepsAllBut [.fData] s (s.setData k bs) :=
  keepsAllBut_iff.2 fun p => by cases p <;> simp [Part.Same]

theorem State.setWireLen_keepsAllBut (s : State) (v : Wide) : KeepsAllBut [.wLen] s (s.setWireLen v) :=
  keepsAllBut_iff.2 fun p => by cases p <;> simp [Part.Same]

theorem State.setWire_keepsAllBut (s : State) (k : Nat) (bs : List Byte) : KeepsAllBut [.wBuf] s (s.setWire k bs) :=
  keepsAllBut_iff.2 fun p => by cases p <;> simp [Part.Same]

theorem State.respond_keepsAllBut (s : State) (w : Word) : KeepsAllBut [.responses] s (s.respond w) :=
  keepsAllBut_iff.2 fun p => by cases p <;> simp [Part.Same]

/-! ### The range checks (R212 to R214, R217, R218) -/

section
variable {i : Half} (k : Nat → Outcome)

theorem withDataIndex_of_lt (h : i.toNat < dataCap) : withDataIndex i k = k i.toNat := if_pos h

theorem withDataIndex_of_eq (h : i.toNat = dataCap) : withDataIndex i k = .refused .addressOutOfRange :=
  if_neg h.not_lt

end

section
variable {s : State} {v : Wide}

theorem withWireIndex_of_lt (k : Nat → Outcome) (h : v.toNat < s.config.wireCap) : withWireIndex s v k = k v.toNat :=
  if_pos h

theorem withWireIndex_of_le (k : Nat → Outcome) (h : s.config.wireCap ≤ v.toNat) :
    withWireIndex s v k = .refused .addressOutOfRange :=
  if_neg (Nat.not_lt_of_le h)

theorem withWireLength_of_le (k : Wide → Outcome) (h : v.toNat ≤ s.config.wireCap) : withWireLength s v k = k v :=
  if_pos h

theorem withWireLength_of_lt (k : Wide → Outcome) (h : s.config.wireCap < v.toNat) :
    withWireLength s v k = .refused .addressOutOfRange :=
  if_neg (Nat.not_le_of_lt h)

end

/-! ### The write commands (R210 to R214) -/

theorem exec_wrtype (v : Half) (s : State) : exec (.wrtype v) s = .next (s.setType v) := rfl

theorem exec_wrsize (v : Half) (s : State) : exec (.wrsize v) s = .next (s.setSize v) := rfl

theorem exec_wrdata_eq (i : Half) (b : Byte) (s : State) :
    exec (.wrdata i b) s = withDataIndex i fun k => .next (s.setData k [b]) := rfl

theorem exec_wrwlen_eq (v : Wide) (s : State) :
    exec (.wrwlen v) s = withWireLength s v fun v => .next (s.setWireLen v) := rfl

theorem exec_wrwbuf_eq (i : Wide) (b : Byte) (s : State) :
    exec (.wrwbuf i b) s = withWireIndex s i fun k => .next (s.setWire k [b]) := rfl

/-- Settles O45: the two commands are the writes of their registers. -/
theorem frameRegistersAreWritten : Obligations.FrameRegistersAreWritten :=
  fun v s => ⟨rfl, rfl, ⟨_, exec_wrtype v s, rfl, s.setType_keepsAllBut v⟩,
    ⟨_, exec_wrsize v s, rfl, s.setSize_keepsAllBut v⟩⟩

/-- Settles O46: an index in range gives a write of the one byte, and 65535 is the only one out of range. -/
theorem wrdataStoresOneByte : Obligations.WrdataStoresOneByte := by
  intro i b s
  rw [exec_wrdata_eq]
  refine ⟨rfl, fun hi => ⟨_, withDataIndex_of_lt _ hi, ?_, ?_, s.setData_keepsAllBut _ _⟩, withDataIndex_of_eq _⟩
  · exact Memory.read_write_same s.fData _ b
  · exact Memory.sameOutside_writeFrom s.fData _ [b]

/-- Settles O47: a length up to WIRE_CAP is written. -/
theorem wrwlenWritesTheLength : Obligations.WrwlenWritesTheLength := by
  intro v s
  rw [exec_wrwlen_eq]
  exact ⟨rfl, fun hv => ⟨_, withWireLength_of_le _ hv, rfl, s.setWireLen_keepsAllBut v⟩, withWireLength_of_lt _⟩

/-- Settles O48: an index below WIRE_CAP gives a write of the one byte. -/
theorem wrwbufStoresOneByte : Obligations.WrwbufStoresOneByte := by
  intro i b s
  rw [exec_wrwbuf_eq]
  refine ⟨rfl, fun hi => ⟨_, withWireIndex_of_lt _ hi, ?_, ?_, s.setWire_keepsAllBut _ _⟩, withWireIndex_of_le _⟩
  · exact Memory.read_write_same s.wBuf _ b
  · exact Memory.sameOutside_writeFrom s.wBuf _ [b]

/-! ### The read commands (R82, R215 to R218) -/

/-- R82: an outcome that is one response adds its word and changes nothing else. -/
theorem exists_of_eq_respond {o : Outcome} {s : State} {w : Word} (h : o = .next (s.respond w)) :
    ∃ t, o = .next t ∧ t.responses = s.responses ++ [w] ∧ KeepsAllBut [.responses] s t :=
  ⟨_, h, rfl, s.respond_keepsAllBut w⟩

section
variable {sel : BitVec 4} {r : RegName} {s : State}

theorem exec_rdreg (h : RegName.ofSel sel = some r) :
    exec (.rdreg sel) s = orFault (s.regWord r) fun w => .next (s.respond w) := by
  simp only [exec, execRdreg, h]

theorem exec_rdreg_of_some {w : Word} (h : RegName.ofSel sel = some r) (hw : s.regWord r = some w) :
    exec (.rdreg sel) s = .next (s.respond w) := by
  rw [exec_rdreg h, hw, orFault_some]

theorem exec_rdreg_of_none (h : RegName.ofSel sel = some r) (hw : s.regWord r = none) :
    exec (.rdreg sel) s = .fault .unwrittenRead := by
  rw [exec_rdreg h, hw, orFault_none]

end

theorem Reg.value?_map_zext32_written {n : Nat} {r : Reg n} {v : BitVec n} (h : r = .written v) :
    r.value?.map zext32 = some (v.setWidth 32) := by
  rw [Reg.value?_eq_some.2 h]
  rfl

theorem Reg.value?_map_zext32_unwritten {n : Nat} {r : Reg n} (h : r = .unwritten) : r.value?.map zext32 = none := by
  rw [h]
  rfl

/-- Settles O49: STATUS and MODE always hold a value, the other four registers when they are written; no other selector
names a register. -/
theorem rdregReadsTheRegister : Obligations.RdregReadsTheRegister := by
  refine fun sel s => ⟨rfl, ?_, ?_, fun v => ?_, fun v => ?_, ?_, execRdreg_reserved.2⟩
  · rintro rfl
    exact exists_of_eq_respond rfl
  · rintro rfl
    exact exists_of_eq_respond rfl
  · rintro (⟨rfl, h⟩ | ⟨rfl, h⟩ | ⟨rfl, h⟩) <;>
      exact exists_of_eq_respond (exec_rdreg_of_some rfl (Reg.value?_map_zext32_written h))
  · rintro rfl h
    exact exists_of_eq_respond (exec_rdreg_of_some rfl (Reg.value?_map_zext32_written h))
  · rintro (⟨rfl, h⟩ | ⟨rfl, h⟩ | ⟨rfl, h⟩ | ⟨rfl, h⟩) <;>
      exact exec_rdreg_of_none rfl (Reg.value?_map_zext32_unwritten h)

theorem exec_rddata_eq (i : Half) (s : State) : exec (.rddata i) s =
    withDataIndex i fun k => orFault (s.fData.read k) fun b => .next (s.respond (zext32 b)) := rfl

theorem exec_rdwbuf_eq (i : Wide) (s : State) : exec (.rdwbuf i) s =
    withWireIndex s i fun k => orFault (s.wBuf.read k) fun b => .next (s.respond (zext32 b)) := rfl

/-- Settles O50: an index in range reads its byte, which is there or not. -/
theorem rddataReadsOneByte : Obligations.RddataReadsOneByte := by
  intro i s
  rw [exec_rddata_eq]
  refine ⟨rfl, fun b hi hb => exists_of_eq_respond ?_, fun hi hb => ?_, withDataIndex_of_eq _⟩
  · rw [withDataIndex_of_lt _ hi, hb, orFault_some, zext32]
  · rw [withDataIndex_of_lt _ hi, hb, orFault_none]

/-- Settles O51: an index below WIRE_CAP reads its byte, which is there or not. -/
theorem rdwbufReadsOneByte : Obligations.RdwbufReadsOneByte := by
  intro i s
  rw [exec_rdwbuf_eq]
  refine ⟨rfl, fun b hi hb => exists_of_eq_respond ?_, fun hi hb => ?_, withWireIndex_of_le _⟩
  · rw [withWireIndex_of_lt _ hi, hb, orFault_some, zext32]
  · rw [withWireIndex_of_lt _ hi, hb, orFault_none]

end Sys2Proof.Machine
end

section
/-! The two ways a step stops the block (60_exceptions.md): a fault (R246, O10) and a refusal (R247, O11). -/

namespace Sys2Proof.Machine

/-! ### Setting a mark leaves the rest unchanged -/

theorem State.setFaultMark_keepsAllBut (s : State) (b : Bool) : KeepsAllBut [.faultMark] s (s.setFaultMark b) :=
  keepsAllBut_iff.2 fun p => by cases p <;> simp [Part.Same]

theorem State.setRefusalMark_keepsAllBut (s : State) (b : Bool) : KeepsAllBut [.refusalMark] s (s.setRefusalMark b) :=
  keepsAllBut_iff.2 fun p => by cases p <;> simp [Part.Same]

/-! ### A set mark stops the block (log 5) -/

theorem step_faultMark {s : State} (h : s.faultMark = true) : step s = .fault .faultMarkSet := by
  rw [step, fetch_faultMark h]

theorem step_refusalMark {s : State} (hfault : s.faultMark = false) (h : s.refusalMark = true) :
    step s = .refused .refusalMarkSet := by
  rw [step, fetch_refusalMark hfault h]

/-! ### Reset clears both marks (R270) -/

@[simp] theorem State.resetNow_faultMark (s : State) : s.resetNow.faultMark = false := rfl
@[simp] theorem State.resetNow_refusalMark (s : State) : s.resetNow.refusalMark = false := rfl

/-- Settles O10: after a fault the state is the old one with the fault mark set, and with that mark no step fetches. -/
theorem faultStopsTheBlock : Obligations.FaultStopsTheBlock := by
  intro s hstep
  rw [hstep, State.afterOutcome_fault]
  exact ⟨s.setFaultMark_faultMark true, s.setFaultMark_keepsAllBut true, step_faultMark (s.setFaultMark_faultMark true),
    State.resetNow_faultMark _⟩

/-- Settles O11: after a refusal the state is the old one with the refusal mark set. The fault mark comes first in fetch, so
that the next step is refused only because it is clear. -/
theorem refusalStopsTheBlock : Obligations.RefusalStopsTheBlock := by
  intro s r hstep hfault
  have hclear : (s.setRefusalMark true).faultMark = false := hfault
  rw [hstep, State.afterOutcome_refused]
  exact ⟨s.setRefusalMark_refusalMark true, s.setRefusalMark_keepsAllBut true,
    step_refusalMark hclear (s.setRefusalMark_refusalMark true), State.resetNow_refusalMark _⟩

end Sys2Proof.Machine
end

section
/-! Reset (70_reset_and_hazards.md R270, O9): what stands in the block after it, that every register can be read then and
every codec command completes, and that no step clears a mark. -/

namespace Sys2Proof.Machine

/-! ### The block after reset (log 2) -/

theorem State.resetUnwritten_keepsAllBut (c : Config) :
    KeepsAllBut [.fType, .fSize, .fCsum, .wLen] (State.resetUnwritten c) (State.resetWith c) :=
  keepsAllBut_iff.2 fun p => by cases p <;> simp [Part.Same]

/-- The frame after reset: type 0 and no data byte. -/
@[simp] theorem State.resetWith_frame? (c : Config) : (State.resetWith c).frame? = some ⟨0#16, 0#16, []⟩ :=
  State.frame?_eq_some.2 ⟨rfl, rfl, rfl, nofun⟩

theorem State.resetWith_regWord (c : Config) (r : RegName) : (State.resetWith c).regWord r = some 0#32 := by
  cases r <;> rfl

/-! ### Commands right after reset -/

theorem exec_rdreg_resetWith (c : Config) {sel : BitVec 4} (h : sel.toNat ≤ 5) :
    exec (.rdreg sel) (State.resetWith c) = .next ((State.resetWith c).respond 0#32) := by
  have hsel : RegName.ofSel sel ≠ none := fun hnone => Nat.not_lt_of_le h (RegName.ofSel_eq_none.1 hnone)
  obtain ⟨r, hr⟩ := Option.ne_none_iff_exists'.1 hsel
  exact exec_rdreg_of_some hr (State.resetWith_regWord c r)

/-- Once there is a frame, ENCODE completes: the frame fits in W_BUF or STATUS takes the error's code (R161). -/
theorem exec_encode_completes {s : State} {f : Frame} (h : s.frame? = some f) : ∃ t, exec .encode s = .next t := by
  rcases Nat.lt_or_ge s.config.wireCap (2 * (8 + f.size.toNat)) with hno | hfit
  · exact ⟨_, exec_encode_of_not_fits h hno⟩
  · exact ⟨_, exec_encode_of_fits h hfit⟩

/-- W_LEN is 0 after reset, so DECODE reads nothing and reports TooShort (R181). -/
theorem exec_decode_resetWith (c : Config) : ∃ t, exec .decode (State.resetWith c) = .next t := by
  obtain ⟨t, ht, -⟩ := shortBuffersAreTooShort (State.resetWith c) 0#18 rfl (by decide)
  exact ⟨t, ht⟩

/-! ### No step clears a mark (R246, R247) -/

theorem step_keeps_faultMark {s : State} (h : s.faultMark = true) : (s.afterOutcome (step s)).faultMark = true := by
  rw [step_faultMark h, State.afterOutcome_fault, State.setFaultMark_faultMark]

/-- A block with the refusal mark set stops again: with a fault if the fault mark is set too, else with a refusal. -/
theorem step_keeps_refusalMark {s : State} (h : s.refusalMark = true) :
    (s.afterOutcome (step s)).refusalMark = true := by
  cases hfault : s.faultMark with
  | true => rw [step_faultMark hfault, State.afterOutcome_fault, State.setFaultMark_refusalMark, h]
  | false => rw [step_refusalMark hfault h, State.afterOutcome_refused, State.setRefusalMark_refusalMark]

/-- Settles O9: the table of R270 holds by definition; after reset the four registers hold 0, so that there is a frame for
CSUM and ENCODE and a length for DECODE; with a mark set, every step stops and leaves it. -/
theorem resetLeavesWhatTheTableSays : Obligations.ResetLeavesWhatTheTableSays := by
  refine ⟨fun c => ?_, fun c => ?_, fun _ => rfl, fun _ => ⟨step_keeps_faultMark, step_keeps_refusalMark⟩⟩
  · exact ⟨rfl, rfl, rfl, rfl, rfl, rfl, fun _ => rfl, fun _ => rfl, rfl, rfl, rfl⟩
  · exact ⟨rfl, rfl, rfl, rfl, State.resetUnwritten_keepsAllBut c, fun _ hsel => ⟨_, exec_rdreg_resetWith c hsel⟩,
      ⟨_, exec_csum_of_frame (State.resetWith_frame? c)⟩, exec_encode_completes (State.resetWith_frame? c),
      exec_decode_resetWith c⟩

end Sys2Proof.Machine
end

section
/-! What stands after the trailing delimiter (44_decode.md R190, O41): a frame that is accepted in a buffer of one length is
accepted in a buffer of any length that holds it, so that neither further bytes nor a larger length matter. -/

namespace Sys2Proof.Machine

section
variable {ph : Phase} {w : Memory} {len len' pos p : Nat}

/-! ### Reads that succeed do so at every length that the cursor stays within (R143) -/

theorem readField_of_length {b : Byte} (h : readField ph w len pos = .ok (b, p)) (hp : p ≤ len') :
    readField ph w len' pos = .ok (b, p) := by
  rcases readField_ok h with ⟨rfl, -, hesc, hx⟩ | ⟨rfl, -, hx, hy⟩
  · exact readField_literal ph hp hx hesc
  · rw [readField_pair ph hp hx hy, BitVec.xor_assoc, BitVec.xor_self, BitVec.xor_zero]

theorem readFields_of_length {n : Nat} {q : List Byte} (h : readFields ph w len n pos = .ok (q, p)) (hp : p ≤ len') :
    readFields ph w len' n pos = .ok (q, p) := by
  induction n generalizing pos q with
  | zero => exact h
  | succ n ih =>
    simp only [readFields] at h ⊢
    obtain ⟨⟨b, p1⟩, hfirst, h⟩ := Dec.bind_ok h
    obtain ⟨⟨bs, p2⟩, hrest, h⟩ := Dec.bind_ok h
    obtain ⟨rfl, rfl⟩ : b :: bs = q ∧ p2 = p := by simpa using h
    obtain ⟨-, hcursor, -⟩ := readFields_ok hrest
    have hp1 : p1 ≤ len' := by omega
    simp only [readField_of_length hfirst hp1, ih hrest, Dec.ok_bind]

theorem readHalf_of_length {v : Half} (h : readHalf ph w len pos = .ok (v, p)) (hp : p ≤ len') :
    readHalf ph w len' pos = .ok (v, p) := by
  obtain ⟨q, hq, rfl⟩ := readHalf_readFields h
  rw [readHalf_eq, readFields_of_length hq hp, Dec.ok_bind]

end

/-! ### The length of the buffer (R190) -/

/-- An accepted frame takes its size and eight raw bytes or more, so that R181 and R184 pass at any length that holds it. -/
theorem decodeFrame_of_length {m : Mode} {w : Memory} {len len' : Nat} {r : Decoded} (h : decodeFrame m w len = .ok r)
    (hused : r.used ≤ len') : decodeFrame m w len' = .ok r := by
  obtain ⟨-, hfirst, p1, p2, p3, p4, htype, hsize, -, hdata, hcsum, hmatch, -, hlast, hend⟩ := decodeFrame_ok h
  obtain ⟨f, c, used⟩ := r
  obtain rfl : used = p4 + 1 := hend
  change p4 < len' at hused
  have hp1 := readHalf_cursor htype
  have hp2 := readHalf_cursor hsize
  obtain ⟨-, (hp3 : p2 + f.size.toNat ≤ p3), -⟩ := readFields_ok hdata
  have hp4 := readHalf_cursor hcsum
  exact decodeFrame_of_reads (by rw [minFrame]; omega) hfirst (readHalf_of_length htype (by omega))
    (readHalf_of_length hsize (by omega)) (by omega) (readFields_of_length hdata (by omega))
    (readHalf_of_length hcsum (by omega)) hmatch hused hlast

/-- Settles O41: with the length cut to the trailing delimiter the two buffers agree below it (R196, O40); then the length
may grow to the other one. -/
theorem trailingBytesAreIgnored : Obligations.TrailingBytesAreIgnored := by
  intro m w w' len len' r h hw hused
  have hcut : decodeFrame m w r.used = .ok r := decodeFrame_of_length h (Nat.le_refl _)
  rw [← decodeReadsBelowTheLength m w w' r.used hw] at hcut
  exact decodeFrame_of_length hcut hused

end Sys2Proof.Machine
end
